-- ==== Sys2Proof/Word.lean ====
section
/-! DEFINITION. The word types of the SQ128 (00_scope 0.4.1): the byte of the register window, the 16-bit
fields of records and entries, and the 32-bit timebase counter and due point. -/

namespace Sys2Proof

/-- A byte of the register window, 00h to FFh. -/
abbrev Byte := BitVec 8

/-- A 16-bit field: repeats, width, remaining fires, pulse countdown, lockout. -/
abbrev Half := BitVec 16

/-- A timebase counter value or a due point: arithmetic on it is modulo 2^32 (0.4.1). -/
abbrev Word := BitVec 32

/-- A register address A4–A0 (12.1). -/
abbrev Addr := BitVec 5

end Sys2Proof
end

