-- ==== Sys2Proof/Syntax.lean ====
section
/-! DEFINITION. The commands and events of the SQ128: one constructor of `Instr` for each row of
spec/opcode_table.json, with the operands the spec gives it. -/

namespace Sys2Proof

/-- The two timebases (0.1): TB0 counts base ticks, TB1 counts rising edges on CNT. -/
inductive Timebase where
  | tb0
  | tb1
  deriving DecidableEq, Repr

/-- An electrical level of a pin (0.4.3). -/
inductive Level where
  | low
  | high
  deriving DecidableEq, Repr

/-- A slot number, 0–127 (Table 0-1). -/
abbrev SlotNo := Fin 128

/-- An output line number, 0–15 (Table 0-1). -/
abbrev LineNo := Fin 16

/-- A trigger input number, 0–3 (Table 0-1). -/
abbrev TrigNo := Fin 4

/-- What an ADVANCE advances. A TB0 advance belongs to a base tick that the line unit takes in an event of
its own, before it or after it (R2, R87); `lineUnitTook` says which: whether the line unit has already taken
the base tick that makes this advance (notes/assumptions/1.md). -/
inductive AdvanceOf where
  | tb0 (lineUnitTook : Bool)
  | tb1
  deriving DecidableEq, Repr

/-- The levels found on the input pins at the release of RESET# (R182). -/
structure PinLevels where
  cnt : Level
  trg0 : Level
  trg1 : Level
  trg2 : Level
  trg3 : Level
  stop : Level
  deriving DecidableEq, Repr

/-- The level found on a trigger pin. -/
def PinLevels.trg (p : PinLevels) (t : TrigNo) : Level :=
  if t = 0 then p.trg0 else if t = 1 then p.trg1 else if t = 2 then p.trg2 else p.trg3

/-- The commands of Table 12-11, as codes written at COMMAND name them. -/
inductive Command where
  | nop
  | arm
  | armOnTrigger
  | cancel
  | release
  | armBatch
  | readReports
  | clearReports
  | readDueList
  | setTimebase
  | holdTimebase
  | resumeTimebase
  | readTime
  | setTick
  | configureLine
  | forceLine
  | queryLine
  | configureTrigger
  | flushTrigger
  | queryTrigger
  | setBlock
  deriving DecidableEq, Repr

/-- One row of spec/opcode_table.json each, in the table's order. A command name (NOP, ARM, ...) stands for the
host's write of its code at COMMAND (R129, R130); its effect at the owning block is the event COMPLETION
(R132), or the block events of a transfer command. -/
inductive Instr where
  /-- BASE_TICK (R2): the line unit and the trigger unit take a base tick, one directly after the other. -/
  | baseTick
  /-- ADVANCE (R61): an advance of a timebase. -/
  | advance (source : AdvanceOf)
  /-- PULSE_END (R86): the line unit takes a base tick in an event of its own. -/
  | pulseEnd
  /-- LOCKOUT_WINDOW_CLOSE (R104): the trigger unit takes a base tick in an event of its own. -/
  | lockoutWindowClose
  /-- TRIGGER_EDGE (R101, R103): a sample of TRGn finds the given level. -/
  | triggerEdge (t : TrigNo) (level : Level)
  /-- STOP_ASSERTION (R169): a qualified change of STOP# to asserted is taken. -/
  | stopAssertion
  /-- STOP_RELEASE (R173): a qualified change of STOP# to released is taken. -/
  | stopRelease
  /-- RESET_ASSERTION (R182): RESET# goes low. -/
  | resetAssertion
  /-- RESET_RELEASE (R182): RESET# is released, or power is applied, with these levels on the input pins. -/
  | resetRelease (pins : PinLevels)
  /-- RECORD_PORT_WRITE (R37): a bus write at 00h. -/
  | recordPortWrite (data : Byte)
  /-- RECORD_PORT_READ (R42): a bus read at 00h. -/
  | recordPortRead
  /-- WRITE_CURSOR (R36): a bus write at 01h. -/
  | writeCursor (data : Byte)
  /-- READ_CURSOR (R41): a bus write at 02h. -/
  | readCursor (data : Byte)
  /-- TRANSFER_PORT_READ (R138): a bus read at 04h. -/
  | transferPortRead
  /-- TRANSFER_PORT_WRITE (R139): a bus write at 04h. -/
  | transferPortWrite (data : Byte)
  /-- STATUS_READ (R176): a bus read at 0Eh. -/
  | statusRead
  /-- ABORT (R142): a write at CONTROL with ABORT set and SRST clear. -/
  | abort
  /-- SOFT_RESET (R144): a write at CONTROL with SRST set. -/
  | softReset
  /-- INT_ENABLE (R178): a bus write at 10h. -/
  | intEnable (data : Byte)
  /-- WATERMARK (R179): a bus write at 11h. -/
  | watermark (data : Byte)
  /-- REGISTER_WRITE (R128, R175): a bus write at another address of the window. -/
  | registerWrite (addr : Addr) (data : Byte)
  | nop
  | arm
  | armOnTrigger
  | cancel
  | release
  | armBatch
  | readReports
  | clearReports
  | readDueList
  | setTimebase
  | holdTimebase
  | resumeTimebase
  | readTime
  | setTick
  | configureLine
  | forceLine
  | queryLine
  | configureTrigger
  | flushTrigger
  | queryTrigger
  | setBlock
  /-- BAD_COMMAND (R129): a code that names no command is written at COMMAND. -/
  | badCommand (code : Byte)
  /-- COMPLETION (R132): the pending completion of the command in progress. -/
  | completion
  /-- BLOCK_PREPARATION (R137): the pending block preparation of READ REPORTS or READ DUE LIST. -/
  | blockPreparation
  /-- BLOCK_OPENING (R139): the first event of ARM BATCH after its acceptance. -/
  | blockOpening
  /-- BLOCK_PROCESSING (R140): the pending block processing of ARM BATCH. -/
  | blockProcessing
  /-- CNT_EDGE (R5): a sample of CNT finds the given level. -/
  | cntEdge (level : Level)
  /-- STOP_SAMPLE (R168): a sample of STOP# finds the given level. -/
  | stopSample (level : Level)
  deriving DecidableEq, Repr

end Sys2Proof
end

