-- ==== Sys2Proof/Decode.lean ====
section
/-! DEFINITION. The codes of COMMAND (Table 12-11) and the command words of the opcode table, which gives no row
any bits. -/

namespace Sys2Proof

/-- The code of a command (Table 12-11). -/
def Command.code : Command → Byte
  | .nop => 0x00
  | .arm => 0x10
  | .armOnTrigger => 0x11
  | .cancel => 0x12
  | .release => 0x13
  | .armBatch => 0x14
  | .readReports => 0x20
  | .clearReports => 0x21
  | .readDueList => 0x22
  | .setTimebase => 0x30
  | .holdTimebase => 0x31
  | .resumeTimebase => 0x32
  | .readTime => 0x33
  | .setTick => 0x34
  | .configureLine => 0x40
  | .forceLine => 0x41
  | .queryLine => 0x42
  | .configureTrigger => 0x50
  | .flushTrigger => 0x51
  | .queryTrigger => 0x52
  | .setBlock => 0x60

/-- The command that a code written at COMMAND names, or none for an undefined code (Table 12-11, R129). -/
def commandOf (b : Byte) : Option Command :=
  match b.toNat with
  | 0x00 => some .nop
  | 0x10 => some .arm
  | 0x11 => some .armOnTrigger
  | 0x12 => some .cancel
  | 0x13 => some .release
  | 0x14 => some .armBatch
  | 0x20 => some .readReports
  | 0x21 => some .clearReports
  | 0x22 => some .readDueList
  | 0x30 => some .setTimebase
  | 0x31 => some .holdTimebase
  | 0x32 => some .resumeTimebase
  | 0x33 => some .readTime
  | 0x34 => some .setTick
  | 0x40 => some .configureLine
  | 0x41 => some .forceLine
  | 0x42 => some .queryLine
  | 0x50 => some .configureTrigger
  | 0x51 => some .flushTrigger
  | 0x52 => some .queryTrigger
  | 0x60 => some .setBlock
  | _ => none

/-- The row that the write of a command's code at COMMAND is. -/
def Command.row : Command → Instr
  | .nop => .nop
  | .arm => .arm
  | .armOnTrigger => .armOnTrigger
  | .cancel => .cancel
  | .release => .release
  | .armBatch => .armBatch
  | .readReports => .readReports
  | .clearReports => .clearReports
  | .readDueList => .readDueList
  | .setTimebase => .setTimebase
  | .holdTimebase => .holdTimebase
  | .resumeTimebase => .resumeTimebase
  | .readTime => .readTime
  | .setTick => .setTick
  | .configureLine => .configureLine
  | .forceLine => .forceLine
  | .queryLine => .queryLine
  | .configureTrigger => .configureTrigger
  | .flushTrigger => .flushTrigger
  | .queryTrigger => .queryTrigger
  | .setBlock => .setBlock

/-- The row that the write of a code at COMMAND is: the command's, or BAD_COMMAND for an undefined code (R129). -/
def rowOfCode (b : Byte) : Instr :=
  match commandOf b with
  | some c => c.row
  | none => .badCommand b

/-- The code that a row writes at COMMAND, or none for a row that is no write of COMMAND. -/
def codeOfRow : Instr → Option Byte
  | .nop => some Command.nop.code
  | .arm => some Command.arm.code
  | .armOnTrigger => some Command.armOnTrigger.code
  | .cancel => some Command.cancel.code
  | .release => some Command.release.code
  | .armBatch => some Command.armBatch.code
  | .readReports => some Command.readReports.code
  | .clearReports => some Command.clearReports.code
  | .readDueList => some Command.readDueList.code
  | .setTimebase => some Command.setTimebase.code
  | .holdTimebase => some Command.holdTimebase.code
  | .resumeTimebase => some Command.resumeTimebase.code
  | .readTime => some Command.readTime.code
  | .setTick => some Command.setTick.code
  | .configureLine => some Command.configureLine.code
  | .forceLine => some Command.forceLine.code
  | .queryLine => some Command.queryLine.code
  | .configureTrigger => some Command.configureTrigger.code
  | .flushTrigger => some Command.flushTrigger.code
  | .queryTrigger => some Command.queryTrigger.code
  | .setBlock => some Command.setBlock.code
  | .badCommand b => some b
  | .baseTick | .advance _ | .pulseEnd | .lockoutWindowClose | .triggerEdge _ _ | .stopAssertion | .stopRelease
  | .resetAssertion | .resetRelease _ | .recordPortWrite _ | .recordPortRead | .writeCursor _ | .readCursor _
  | .transferPortRead | .transferPortWrite _ | .statusRead | .abort | .softReset | .intEnable _ | .watermark _
  | .registerWrite _ _ | .completion | .blockPreparation | .blockOpening | .blockProcessing | .cntEdge _
  | .stopSample _ => none

/-- The command that a word spells by the bits of spec/opcode_table.json. The table gives no row any bits, so no
word spells a command. -/
def decodeTableWord (_nbits _w : Nat) : Option Instr := none

end Sys2Proof
end

