-- ==== Sys2Proof/Config.lean ====
section
/-! DEFINITION. What is fixed for the part (Tables 0-1 and 1-1, R180), and the one free value the manual
leaves open: which unit takes a base tick first. -/

namespace Sys2Proof

/-- DEVICE ID, 4Dh at every read and in every state (R180). -/
def Config.deviceId : Byte := 0x4D

/-- The report queue holds at most 32 entries (R117, R120). -/
def Config.queueDepth : Nat := 32

/-- CLK periods per base tick for a tick code (Table 1-1). -/
def Config.clkPeriods (code : Fin 4) : Nat := 16 * 10 ^ code.val

/-- FREE VALUE (R88: "Which is first is not fixed"): for the n-th base tick that the block makes of its own
CLK count, whether the line unit takes it before the scheduler. It has no body: nothing can be proved of
its values. DESIGN CHOICE, notes/assumptions/2.md. -/
opaque Config.lineUnitFirst : Nat → Bool

end Sys2Proof
end

