-- ==== Sys2Proof/Machine/State.lean ====
section
/-! DEFINITION. The state of the SQ128, block by block as 0.2.1 divides it, as plain data; the reasons a step can
stop; the machine right after power-on or the release of RESET#. A field that the manual gives as a view of
another (the report level, QFULL, REPL, BUSY, XFER, the write field position, the electrical levels, INT) is not
stored twice: Machine/Flags.lean computes it (notes/assumptions/11.md). -/

namespace Sys2Proof.Machine

/-- Reasons to stop with a fault. The SQ128 has none: every command and every event has an effect, or none at
all, in every state (0.3, 0.4.5), so nobody raises one. Safe. -/
inductive Fault where
  deriving DecidableEq, Repr

/-- Reasons to refuse a command. -/
inductive Refusal where
  /-- Raised by `exec` for a row that has no meaning yet. Safe: the run stops there. No row is in this case. -/
  | notModelled (mnemonic : String)
  deriving DecidableEq, Repr

/-! ## Timebase unit (Table 1-2) -/

/-- Run state of a timebase. -/
inductive RunState where
  | running
  | held
  deriving DecidableEq, Repr

/-- A timebase counter and its run state (Table 1-2). -/
structure Counter where
  count : Word
  run : RunState
  deriving DecidableEq, Repr

/-- The timebase unit (Table 1-2), with the base tick count of R1: the CLK periods elapsed since the previous base
tick, or since the release of RESET# or the last SET TICK. -/
structure TimebaseUnit where
  tickCode : Fin 4
  clkCount : Nat
  tb0 : Counter
  tb1 : Counter
  cntLevel : Level
  deriving DecidableEq, Repr

/-! ## Slot table (Tables 2-2 and 2-5) -/

/-- What a fire requests of the line unit (R18). -/
inductive Action where
  | none
  | set
  | clear
  | pulse
  | toggle
  deriving DecidableEq, Repr

/-- What an arm attempt does with a due point already past (R22). -/
inductive LatePolicy where
  | fire
  | drop
  deriving DecidableEq, Repr

/-- The four slot states (Table 2-7). -/
inductive SlotState where
  | free
  | held
  | waiting
  | armed
  deriving DecidableEq, Repr

/-- The configuration part of a slot record (Table 2-2). -/
structure SlotConfig where
  tag : Byte
  timebase : Timebase
  action : Action
  latePolicy : LatePolicy
  reportEnable : Bool
  chainEnable : Bool
  line : LineNo
  successor : SlotNo
  offset : Word
  period : Word
  repeats : Half
  width : Half
  deriving DecidableEq, Repr

/-- The run part of a slot record (Table 2-5). -/
structure RunPart where
  state : SlotState
  bound : Option TrigNo
  due : Word
  remaining : Half
  unlimited : Bool
  deriving DecidableEq, Repr

/-- A slot record (2.1). -/
structure Slot where
  config : SlotConfig
  run : RunPart
  deriving DecidableEq, Repr

/-! ## Scheduler (Table 4-1) -/

/-- The six lists of the scheduler: slot numbers only, head first (Table 4-1). -/
structure Scheduler where
  due0 : List SlotNo
  due1 : List SlotNo
  waits : Vector (List SlotNo) 4
  deriving DecidableEq, Repr

/-! ## Line unit (Table 6-1) -/

/-- Electrical level that stands for the active logical state (Table 6-1). -/
inductive Polarity where
  | activeHigh
  | activeLow
  deriving DecidableEq, Repr

/-- Logical state of a line (0.4.3). -/
inductive Logical where
  | inactive
  | active
  deriving DecidableEq, Repr

/-- A line record (Table 6-1). -/
structure Line where
  polarity : Polarity
  safe : Level
  logical : Logical
  owner : Option SlotNo
  countdown : Half
  forced : Bool
  fresh : Bool
  deriving DecidableEq, Repr

/-! ## Trigger unit (Table 7-1) -/

/-- Which edges of a trigger pin are qualified (Table 7-1). -/
inductive EdgeSelect where
  | none
  | rising
  | falling
  | both
  deriving DecidableEq, Repr

/-- A trigger channel (Table 7-1). -/
structure Channel where
  pin : Level
  select : EdgeSelect
  lockLength : Half
  lockLeft : Half
  reportUnclaimed : Bool
  bounce : Byte
  deriving DecidableEq, Repr

/-! ## Report queue (Tables 8-1, 8-2 and 8-4) -/

/-- Report kinds (Table 8-2). -/
inductive ReportKind where
  | fired
  | late
  | dropped
  | cancelled
  | stopped
  | chainFault
  | unclaimed
  | bound
  deriving DecidableEq, Repr

/-- Why a chain attempt was refused (Table 8-4). -/
inductive ChainCause where
  | none
  | notHeld
  | lineBusy
  | badOffset
  deriving DecidableEq, Repr

/-- The aux field of a report (Table 8-2): FFh, a successor or a trigger number. -/
inductive Aux where
  | none
  | successor (x : SlotNo)
  | trigger (t : TrigNo)
  deriving DecidableEq, Repr

/-- The flags of a report (Table 8-4). -/
structure ReportFlags where
  timebase : Timebase
  overlap : Bool
  final : Bool
  noSlot : Bool
  unlimited : Bool
  cause : ChainCause
  deriving DecidableEq, Repr

/-- A report entry (Table 8-2); `slot` is none where the manual shows FFh. -/
structure Report where
  kind : ReportKind
  flags : ReportFlags
  slot : Option SlotNo
  tag : Byte
  value : Word
  at_ : Word
  remaining : Half
  lost : Byte
  aux : Aux
  deriving DecidableEq, Repr

/-- The report queue (Table 8-1), oldest entry at the head. -/
structure ReportQueue where
  entries : List Report
  lost : Byte
  watermark : Nat
  deriving DecidableEq, Repr

/-! ## Record port (Table 3-1) -/

/-- Side of the record port used last (Table 3-1). -/
inductive CursorSide where
  | write
  | read
  deriving DecidableEq, Repr

/-- Result of the last commit (Table 3-1). -/
inductive CommitResult where
  | none
  | accepted
  | refusedState
  | refusedFormat
  deriving DecidableEq, Repr

/-- The record port (Table 3-1). The write field position is the number of bytes in write staging. -/
structure RecordPort where
  writeCursor : SlotNo
  writeStaging : List Byte
  readCursor : SlotNo
  readPos : Nat
  readStaging : Option (List Byte)
  last : CursorSide
  result : CommitResult
  deriving DecidableEq, Repr

/-! ## Command engine (Tables 9-1, 9-2 and 9-3) -/

/-- Engine phases (Table 9-3). -/
inductive Phase where
  | idle
  | engine
  | transfer
  deriving DecidableEq, Repr

/-- Error codes by name (Table 9-2). -/
inductive ErrorCode where
  | none
  | badCommand
  | badNumber
  | badState
  | lineBusy
  | badParam
  | stopped
  | aborted
  | tbBusy
  | dropped
  deriving DecidableEq, Repr

/-- The seven parameter registers (Table 9-1). -/
structure Params where
  pSlot : Byte
  option : Byte
  count : Byte
  value0 : Byte
  value1 : Byte
  value2 : Byte
  value3 : Byte
  deriving DecidableEq, Repr

/-- The current command: its code with the parameters latched at acceptance (R129). -/
structure Latched where
  code : Byte
  params : Params
  deriving DecidableEq, Repr

/-- An entry of a due-list snapshot (R69). -/
structure DueEntry where
  slot : SlotNo
  timebase : Timebase
  periodic : Bool
  unlimited : Bool
  due : Word
  remaining : Half
  deriving DecidableEq, Repr

/-- The transfer buffer: the entries of the open block (Table 9-1), or, in ARM BATCH, the bytes written so far. -/
inductive TransferBuffer where
  | empty
  | reports (entries : List Report)
  | dues (entries : List DueEntry)
  | slots (bytes : List Byte)
  deriving DecidableEq, Repr

/-- The command engine (Table 9-1). BUSY and XFER are the phase (Table 9-3). -/
structure Engine where
  params : Params
  current : Option Latched
  phase : Phase
  error : ErrorCode
  remain : Byte
  err : Bool
  cmdp : Bool
  rej : Bool
  blockSize : Nat
  buffer : TransferBuffer
  blockLength : Nat
  bytePos : Nat
  snapshot : List DueEntry
  delivered : Nat
  deriving DecidableEq, Repr

/-! ## Host port and stop monitor -/

/-- INT ENABLE (R178). -/
structure IntEnable where
  cmd : Bool
  report : Bool
  stop : Bool
  deriving DecidableEq, Repr

/-- The stop monitor (Table 11-1); STOP# is asserted when its level is low. -/
structure StopMonitor where
  level : Level
  qualCount : Nat
  stopl : Bool
  deriving DecidableEq, Repr

/-- The SQ128, with the queue of the commands that are waiting. -/
structure State where
  pending : List Instr
  resetHeld : Bool
  readData : Option Byte
  timebase : TimebaseUnit
  slots : Vector Slot 128
  sched : Scheduler
  lines : Vector Line 16
  trigs : Vector Channel 4
  reports : ReportQueue
  record : RecordPort
  engine : Engine
  intEnable : IntEnable
  stop : StopMonitor
  freeIndex : Nat
  deriving DecidableEq, Repr

namespace State

/-! One update for each field; Laws/State.lean has a lemma for every field under every update. -/

/-- Replace the queue of waiting commands. -/
def withPending (s : State) (v : List Instr) : State := { s with pending := v }
/-- Replace the RESET# mark. -/
def withResetHeld (s : State) (v : Bool) : State := { s with resetHeld := v }
/-- Replace the byte of the last bus read. -/
def withReadData (s : State) (v : Option Byte) : State := { s with readData := v }
/-- Replace the timebase unit. -/
def withTimebase (s : State) (v : TimebaseUnit) : State := { s with timebase := v }
/-- Replace the slot table. -/
def withSlots (s : State) (v : Vector Slot 128) : State := { s with slots := v }
/-- Replace the scheduler's lists. -/
def withSched (s : State) (v : Scheduler) : State := { s with sched := v }
/-- Replace the line records. -/
def withLines (s : State) (v : Vector Line 16) : State := { s with lines := v }
/-- Replace the trigger channels. -/
def withTrigs (s : State) (v : Vector Channel 4) : State := { s with trigs := v }
/-- Replace the report queue. -/
def withReports (s : State) (v : ReportQueue) : State := { s with reports := v }
/-- Replace the record port. -/
def withRecord (s : State) (v : RecordPort) : State := { s with record := v }
/-- Replace the command engine. -/
def withEngine (s : State) (v : Engine) : State := { s with engine := v }
/-- Replace INT ENABLE. -/
def withIntEnable (s : State) (v : IntEnable) : State := { s with intEnable := v }
/-- Replace the stop monitor. -/
def withStop (s : State) (v : StopMonitor) : State := { s with stop := v }
/-- Replace the index of the next free value. -/
def withFreeIndex (s : State) (v : Nat) : State := { s with freeIndex := v }

end State

/-! ## Power-on values -/

/-- The timebase unit at the release of RESET# (R13). -/
def TimebaseUnit.powerOn (cnt : Level) : TimebaseUnit where
  tickCode := 0
  clkCount := 0
  tb0 := { count := 0, run := .running }
  tb1 := { count := 0, run := .running }
  cntLevel := cnt

/-- The configuration part of a FREE slot: all zero (R26). -/
def SlotConfig.zero : SlotConfig where
  tag := 0
  timebase := .tb0
  action := .none
  latePolicy := .fire
  reportEnable := false
  chainEnable := false
  line := 0
  successor := 0
  offset := 0
  period := 0
  repeats := 0
  width := 0

/-- The run part of the FREE row of Table 2-6. -/
def RunPart.free : RunPart where
  state := .free
  bound := none
  due := 0
  remaining := 0
  unlimited := false

/-- The run part of the HELD row of Table 2-6. -/
def RunPart.held : RunPart where
  state := .held
  bound := none
  due := 0
  remaining := 0
  unlimited := false

/-- A FREE slot (R26, R33). -/
def Slot.free : Slot where
  config := .zero
  run := .free

/-- The scheduler with all six lists empty (R70). -/
def Scheduler.empty : Scheduler where
  due0 := []
  due1 := []
  waits := Vector.replicate 4 []

/-- A line record at power-on (R98). -/
def Line.powerOn : Line where
  polarity := .activeHigh
  safe := .low
  logical := .inactive
  owner := none
  countdown := 0
  forced := false
  fresh := false

/-- A trigger channel at power-on, its pin level as sampled then (R113). -/
def Channel.powerOn (pin : Level) : Channel where
  pin := pin
  select := .none
  lockLength := 0
  lockLeft := 0
  reportUnclaimed := false
  bounce := 0

/-- The report queue at power-on (R126). -/
def ReportQueue.powerOn : ReportQueue where
  entries := []
  lost := 0
  watermark := 1

/-- The record port at power-on (R47). -/
def RecordPort.powerOn : RecordPort where
  writeCursor := 0
  writeStaging := []
  readCursor := 0
  readPos := 0
  readStaging := none
  last := .write
  result := .none

/-- The seven parameter registers at 0. -/
def Params.zero : Params where
  pSlot := 0
  option := 0
  count := 0
  value0 := 0
  value1 := 0
  value2 := 0
  value3 := 0

/-- The command engine at power-on (R145). -/
def Engine.powerOn : Engine where
  params := .zero
  current := none
  phase := .idle
  error := .none
  remain := 0
  err := false
  cmdp := false
  rej := false
  blockSize := 1
  buffer := .empty
  blockLength := 0
  bytePos := 0
  snapshot := []
  delivered := 0

/-- INT ENABLE at power-on: 00h (R178). -/
def IntEnable.powerOn : IntEnable where
  cmd := false
  report := false
  stop := false

/-- The stop monitor at the release of RESET#, by the level found on STOP# (Table 11-1, R168). -/
def StopMonitor.powerOn (pin : Level) : StopMonitor where
  level := pin
  qualCount := 0
  stopl := decide (pin = .low)

/-- The SQ128 right after a release of RESET# that finds `pins` on the input pins (R182). -/
def State.powerOn (pins : PinLevels) : State where
  pending := []
  resetHeld := false
  readData := none
  timebase := .powerOn pins.cnt
  slots := Vector.replicate 128 .free
  sched := .empty
  lines := Vector.replicate 16 .powerOn
  trigs := ⟨⟨[.powerOn pins.trg0, .powerOn pins.trg1, .powerOn pins.trg2, .powerOn pins.trg3]⟩, rfl⟩
  reports := .powerOn
  record := .powerOn
  engine := .powerOn
  intEnable := .powerOn
  stop := .powerOn pins.stop
  freeIndex := 0

/-- DESIGN CHOICE, notes/assumptions/3.md: the input levels that `State.reset` finds. The manual says only "as
sampled at RESET# release". -/
def resetPins : PinLevels where
  cnt := .low
  trg0 := .low
  trg1 := .low
  trg2 := .low
  trg3 := .low
  stop := .high

/-- The machine right after power-on: every block at the value its chapter gives, the queue empty. -/
def State.reset : State := .powerOn resetPins

end Sys2Proof.Machine
end

