-- ==== Sys2Proof/Machine/Ops.lean ====
section
/-! DEFINITION. The named operations that every block shares: reading and writing one record of a bank, the due-point
test and the remaining distance (R6, R7), the ordered insertion into a due list (R50), and appending a report
(R116, R117). -/

namespace Sys2Proof.Machine

/-! ## Banks of records -/

/-- Apply `f` to every record of a bank, with its number. -/
def bankMap {α β : Type} {n : Nat} (f : Fin n → α → β) (v : Vector α n) : Vector β n :=
  ⟨⟨(List.finRange n).map fun i => f i v[i]⟩, by simp⟩

/-- The record of a slot. -/
def State.slot (s : State) (x : SlotNo) : Slot := s.slots[x]

/-- Replace the record of a slot. -/
def State.setSlot (s : State) (x : SlotNo) (v : Slot) : State := s.withSlots (s.slots.set x v)

/-- Replace the run part of a slot; its configuration part is kept. -/
def State.setRun (s : State) (x : SlotNo) (r : RunPart) : State := s.setSlot x { s.slot x with run := r }

/-- The record of a line. -/
def State.line (s : State) (l : LineNo) : Line := s.lines[l]

/-- Replace the record of a line. -/
def State.setLine (s : State) (l : LineNo) (v : Line) : State := s.withLines (s.lines.set l v)

/-- A trigger channel. -/
def State.trig (s : State) (t : TrigNo) : Channel := s.trigs[t]

/-- Replace a trigger channel. -/
def State.setTrig (s : State) (t : TrigNo) (v : Channel) : State := s.withTrigs (s.trigs.set t v)

/-- STOP# is asserted: the stop monitor's level is low (Table 11-1). -/
def State.stopAsserted (s : State) : Bool := decide (s.stop.level = .low)

/-! ## Counters -/

/-- The counter of a timebase with its run state. -/
def State.counterOf (s : State) : Timebase → Counter
  | .tb0 => s.timebase.tb0
  | .tb1 => s.timebase.tb1

/-- The value of a timebase counter. -/
def State.now (s : State) (tb : Timebase) : Word := (s.counterOf tb).count

/-- Replace the counter of a timebase. -/
def State.setCounter (s : State) (tb : Timebase) (c : Counter) : State :=
  match tb with
  | .tb0 => s.withTimebase { s.timebase with tb0 := c }
  | .tb1 => s.withTimebase { s.timebase with tb1 := c }

/-- Due point `d` is reached at counter `c` (R6). -/
def reached (c d : Word) : Bool := decide ((c - d).toNat < 2 ^ 31)

/-- The remaining distance of due point `d` on counter `c` (R7). -/
def distance (c d : Word) : Nat := (d - c).toNat

/-! ## The six lists -/

/-- One of the six lists (Table 4-1). -/
inductive ListRef where
  | due (tb : Timebase)
  | wait (t : TrigNo)
  deriving DecidableEq, Repr

/-- The slots of a list, head first. -/
def Scheduler.list (q : Scheduler) : ListRef → List SlotNo
  | .due .tb0 => q.due0
  | .due .tb1 => q.due1
  | .wait t => q.waits[t]

/-- Replace one list. -/
def Scheduler.setList (q : Scheduler) (r : ListRef) (l : List SlotNo) : Scheduler :=
  match r with
  | .due .tb0 => { q with due0 := l }
  | .due .tb1 => { q with due1 := l }
  | .wait t => { q with waits := q.waits.set t l }

/-- The slots of a list of the state. -/
def State.list (s : State) (r : ListRef) : List SlotNo := s.sched.list r

/-- Replace one list of the state. -/
def State.setList (s : State) (r : ListRef) (l : List SlotNo) : State := s.withSched (s.sched.setList r l)

/-- Remove a slot from a list; the others keep their order (R50, R52). -/
def State.removeFrom (s : State) (r : ListRef) (x : SlotNo) : State := s.setList r ((s.list r).erase x)

/-- Insert `x` after every entry whose distance is at most its own and before the first whose distance is
greater (R50). -/
def insertByDistance (dist : SlotNo → Nat) (x : SlotNo) : List SlotNo → List SlotNo
  | [] => [x]
  | y :: ys => if dist y ≤ dist x then y :: insertByDistance dist x ys else x :: y :: ys

/-- The remaining distance of a slot's current due point on the counter of timebase `tb` (R7). -/
def State.distanceOn (s : State) (tb : Timebase) (x : SlotNo) : Nat := distance (s.now tb) (s.slot x).run.due

/-- Insert a slot into the due list of timebase `tb` at its place (R50). -/
def State.insertDue (s : State) (tb : Timebase) (x : SlotNo) : State :=
  s.setList (.due tb) (insertByDistance (s.distanceOn tb) x (s.list (.due tb)))

/-! ## Saturating counts -/

/-- A count lowered by one, never below 0. -/
def lower {n : Nat} (x : BitVec n) : BitVec n := if x = 0 then 0 else x - 1

/-- A count of one byte raised by one, staying at 255 (R103, R117). -/
def raise255 (x : Byte) : Byte := if x = 255 then 255 else x + 1

/-! ## The report queue -/

/-- Hand a report to the queue: appended with the lost count while the level is below 32, otherwise discarded and
counted (R116, R117). The producer's `lost` field is not used. -/
def ReportQueue.append (q : ReportQueue) (r : Report) : ReportQueue :=
  if q.entries.length < Config.queueDepth then
    { q with entries := q.entries ++ [{ r with lost := q.lost }], lost := 0 }
  else
    { q with lost := raise255 q.lost }

/-- Post a report. -/
def State.post (s : State) (r : Report) : State := s.withReports (s.reports.append r)

/-- Post a report when `b` holds (a slot's report enable, R16, or a channel's report unclaimed flag, R108). -/
def State.postIf (s : State) (b : Bool) (r : Report) : State := if b then s.post r else s

/-- The queue emptied, its watermark kept (R125, R127). -/
def ReportQueue.cleared (q : ReportQueue) : ReportQueue := { q with entries := [], lost := 0 }

end Sys2Proof.Machine
end

