-- ==== Sys2Proof/Machine/Operands.lean ====
section
/-! DEFINITION. The layouts of 12.3: the parameter registers, the OPTION fields (Table 12-10), the slot images
(Tables 12-4 to 12-6) with the format checks of R38, the report entry (Tables 12-7, 12-8) and the due-list entry
(Table 12-9). -/

namespace Sys2Proof.Machine

/-! ## Bytes and bits: least significant byte first (0.4.1) -/

/-- Byte `i` of a field, byte 0 the least significant. -/
def byteOf {n : Nat} (w : BitVec n) (i : Nat) : Byte := w.extractLsb' (8 * i) 8

/-- A 16-bit field from its two bytes, least significant first. -/
def halfOf (b0 b1 : Byte) : Half := b1 ++ b0

/-- A 32-bit field from its four bytes, least significant first. -/
def wordOf (b0 b1 b2 b3 : Byte) : Word := b3 ++ b2 ++ b1 ++ b0

/-- The byte with bit `i` as given and every other bit 0. -/
def bitAt (i : Nat) (b : Bool) : Byte := if b then BitVec.twoPow 8 i else 0

/-- The byte with these eight bits, bit 0 first. -/
def packByte (b0 b1 b2 b3 b4 b5 b6 b7 : Bool) : Byte :=
  bitAt 0 b0 ||| bitAt 1 b1 ||| bitAt 2 b2 ||| bitAt 3 b3 ||| bitAt 4 b4 ||| bitAt 5 b5 ||| bitAt 6 b6 ||| bitAt 7 b7

/-- The byte with `v` in the bits from `i` up. -/
def fieldAt (i : Nat) (v : Nat) : Byte := BitVec.ofNat 8 v <<< i

/-- A slot number, where the byte is one (0–127). -/
def slotOf (b : Byte) : Option SlotNo := if h : b.toNat < 128 then some ⟨b.toNat, h⟩ else none

/-- A line number, where the byte is one (0–15). -/
def lineOf (b : Byte) : Option LineNo := if h : b.toNat < 16 then some ⟨b.toNat, h⟩ else none

/-- A trigger number, where the byte is one (0–3). -/
def trigOf (b : Byte) : Option TrigNo := if h : b.toNat < 4 then some ⟨b.toNat, h⟩ else none

/-- A cursor value: the byte modulo 128 (R36, R41). -/
def cursorOf (b : Byte) : SlotNo := Fin.ofNat 128 b.toNat

/-- The next slot number, 127 followed by 0 (R39, R42). -/
def nextSlot (x : SlotNo) : SlotNo := x + 1

/-- A number as a byte. -/
def byteOfFin {n : Nat} (x : Fin n) : Byte := BitVec.ofNat 8 x.val

/-! ## OPTION (Tables 10-2 and 12-10) -/

/-- The mode of an arm attempt (R53). -/
inductive ArmMode where
  | absolute
  | relative
  | chain
  deriving DecidableEq, Repr

/-- ARM and ARM BATCH: bit 0. -/
def optionMode (o : Byte) : ArmMode := if o.getLsbD 0 then .relative else .absolute

/-- CANCEL: CUT in bit 0. -/
def optionCut (o : Byte) : Bool := o.getLsbD 0

/-- The timebases that a timebase select names, TB0 then TB1: bit 0 names TB0 and bit 1 TB1. -/
def optionNames (o : Byte) : Timebase → Bool
  | .tb0 => o.getLsbD 0
  | .tb1 => o.getLsbD 1

/-- The one timebase that a timebase select names; none for NONE and for BOTH. -/
def optionOne (o : Byte) : Option Timebase :=
  match o.getLsbD 0, o.getLsbD 1 with
  | true, false => some .tb0
  | false, true => some .tb1
  | _, _ => none

/-- FORCE LINE: logical state in bit 0. -/
def optionLogical (o : Byte) : Logical := if o.getLsbD 0 then .active else .inactive

/-- CONFIGURE LINE: polarity in bit 0. -/
def optionPolarity (o : Byte) : Polarity := if o.getLsbD 0 then .activeLow else .activeHigh

/-- CONFIGURE LINE: safe level in bit 1. -/
def optionSafe (o : Byte) : Level := if o.getLsbD 1 then .high else .low

/-- CONFIGURE TRIGGER: edge select in bits 1–0. -/
def optionEdge (o : Byte) : EdgeSelect :=
  match o.getLsbD 1, o.getLsbD 0 with
  | false, false => .none
  | false, true => .rising
  | true, false => .falling
  | true, true => .both

/-- CONFIGURE TRIGGER: report unclaimed in bit 2. -/
def optionUnclaimed (o : Byte) : Bool := o.getLsbD 2

/-- READ TIME, result: run states in bits 0 and 1, tick code in bits 3–2, bits 7–4 0. -/
def timeOption (u : TimebaseUnit) : Byte :=
  bitAt 0 (decide (u.tb0.run = .held)) ||| bitAt 1 (decide (u.tb1.run = .held)) ||| fieldAt 2 u.tickCode.val

/-- QUERY LINE, result: logical state in bit 0, forced in bit 1, bits 7–2 0. -/
def lineOption (l : Line) : Byte := bitAt 0 (decide (l.logical = .active)) ||| bitAt 1 l.forced

/-- VALUE0–VALUE3 as one value, least significant byte in VALUE0. -/
def Params.value (p : Params) : Word := wordOf p.value0 p.value1 p.value2 p.value3

/-- VALUE0–VALUE1 as one value. -/
def Params.half (p : Params) : Half := halfOf p.value0 p.value1

/-- Place a value in VALUE0–VALUE3. -/
def Params.withValue (p : Params) (w : Word) : Params :=
  { p with value0 := byteOf w 0, value1 := byteOf w 1, value2 := byteOf w 2, value3 := byteOf w 3 }

/-! ## Slot images (Tables 12-4 to 12-6) -/

/-- The code of an action (Table 12-5). -/
def Action.code : Action → Nat
  | .none => 0
  | .set => 1
  | .clear => 2
  | .pulse => 3
  | .toggle => 4

/-- The action that a code names; codes 5–7 name none (R18). -/
def actionOf (code : Nat) : Option Action :=
  match code with
  | 0 => some .none
  | 1 => some .set
  | 2 => some .clear
  | 3 => some .pulse
  | 4 => some .toggle
  | _ => none

/-- The mode byte (Table 12-5); bit 7 is 0. -/
def modeByte (c : SlotConfig) : Byte :=
  bitAt 0 (decide (c.timebase = .tb1)) ||| fieldAt 1 c.action.code ||| bitAt 4 (decide (c.latePolicy = .drop)) |||
    bitAt 5 c.reportEnable ||| bitAt 6 c.chainEnable

/-- The write image of a configuration (Table 12-4), which is also bytes 0–15 of the read image. -/
def configImage (c : SlotConfig) : List Byte :=
  [c.tag, modeByte c, byteOfFin c.line, byteOfFin c.successor,
   byteOf c.offset 0, byteOf c.offset 1, byteOf c.offset 2, byteOf c.offset 3,
   byteOf c.period 0, byteOf c.period 1, byteOf c.period 2, byteOf c.period 3,
   byteOf c.repeats 0, byteOf c.repeats 1, byteOf c.width 0, byteOf c.width 1]

/-- The record that a completed write image holds, or none where it fails a format check of Table 3-3 (R38): action
code 5–7, line above 15, successor above 127, period 2^31 or more, width 0 with PULSE. Bit 7 of the mode byte
is not looked at (R181). -/
def imageConfig (img : List Byte) : Option SlotConfig :=
  let b (i : Nat) : Byte := img.getD i 0
  let mode := b 1
  let period := wordOf (b 8) (b 9) (b 10) (b 11)
  let width := halfOf (b 14) (b 15)
  match actionOf (mode.extractLsb' 1 3).toNat, lineOf (b 2), slotOf (b 3) with
  | some action, some line, some successor =>
    if period.toNat < 2 ^ 31 ∧ ¬(action = .pulse ∧ width = 0) then
      some
        { tag := b 0
          timebase := if mode.getLsbD 0 then .tb1 else .tb0
          action := action
          latePolicy := if mode.getLsbD 4 then .drop else .fire
          reportEnable := mode.getLsbD 5
          chainEnable := mode.getLsbD 6
          line := line
          successor := successor
          offset := wordOf (b 4) (b 5) (b 6) (b 7)
          period := period
          repeats := halfOf (b 12) (b 13)
          width := width }
    else none
  | _, _, _ => none

/-- The code of a slot state (Table 12-6). -/
def SlotState.code : SlotState → Nat
  | .free => 0
  | .held => 1
  | .waiting => 2
  | .armed => 3

/-- Bytes 16–23 of the read image (Table 12-6). -/
def runImage (r : RunPart) : List Byte :=
  [fieldAt 0 r.state.code ||| bitAt 7 r.unlimited,
   match r.bound with
   | some t => byteOfFin t
   | none => 0xFF,
   byteOf r.remaining 0, byteOf r.remaining 1,
   byteOf r.due 0, byteOf r.due 1, byteOf r.due 2, byteOf r.due 3]

/-- The 24-byte read image of a slot (R32). -/
def readImage (x : Slot) : List Byte := configImage x.config ++ runImage x.run

/-! ## Report entry (Tables 12-7 and 12-8) -/

/-- The code of a report kind (Table 12-7). -/
def ReportKind.code : ReportKind → Byte
  | .fired => 1
  | .late => 2
  | .dropped => 3
  | .cancelled => 4
  | .stopped => 5
  | .chainFault => 6
  | .unclaimed => 7
  | .bound => 8

/-- The code of a chain cause (Table 12-8). -/
def ChainCause.code : ChainCause → Nat
  | .none => 0
  | .notHeld => 1
  | .lineBusy => 2
  | .badOffset => 3

/-- The report flags byte (Table 12-8). -/
def flagsByte (f : ReportFlags) : Byte :=
  bitAt 0 (decide (f.timebase = .tb1)) ||| bitAt 1 f.overlap ||| bitAt 2 f.final ||| bitAt 3 f.noSlot |||
    bitAt 4 f.unlimited ||| fieldAt 5 f.cause.code

/-- The aux byte (Table 12-7). -/
def auxByte : Aux → Byte
  | .none => 0xFF
  | .successor x => byteOfFin x
  | .trigger t => byteOfFin t

/-- A slot number or FFh for none (Table 12-7, Table 10-18). -/
def ownerByte : Option SlotNo → Byte
  | some x => byteOfFin x
  | none => 0xFF

/-- The sixteen bytes of a report entry (Table 12-7). -/
def reportImage (r : Report) : List Byte :=
  [r.kind.code, flagsByte r.flags, ownerByte r.slot, r.tag,
   byteOf r.value 0, byteOf r.value 1, byteOf r.value 2, byteOf r.value 3,
   byteOf r.at_ 0, byteOf r.at_ 1, byteOf r.at_ 2, byteOf r.at_ 3,
   byteOf r.remaining 0, byteOf r.remaining 1, r.lost, auxByte r.aux]

/-! ## Due-list entry (Table 12-9) -/

/-- The eight bytes of a due-list transfer entry (Table 12-9). -/
def dueImage (e : DueEntry) : List Byte :=
  [byteOfFin e.slot,
   bitAt 0 (decide (e.timebase = .tb1)) ||| bitAt 1 e.periodic ||| bitAt 2 e.unlimited,
   byteOf e.due 0, byteOf e.due 1, byteOf e.due 2, byteOf e.due 3,
   byteOf e.remaining 0, byteOf e.remaining 1]

end Sys2Proof.Machine
end

