-- ==== Sys2Proof/Machine/LineUnit.lean ====
section
/-! DEFINITION. The line unit (chapter 6): electrical and logical state, actions, the pulse countdown, ownership, and
what the line commands, the stop and the soft reset do to a line record. -/

namespace Sys2Proof.Machine

/-! ## Electrical and logical state (R83) -/

/-- The electrical level of a logical state under a polarity (R83). -/
def electrical : Polarity → Logical → Level
  | .activeHigh, .active => .high
  | .activeHigh, .inactive => .low
  | .activeLow, .active => .low
  | .activeLow, .inactive => .high

/-- The logical state whose level under the polarity is the given one (R83). -/
def logicalFor (p : Polarity) (v : Level) : Logical := if electrical p .active = v then .active else .inactive

/-- The level a line record drives its pin at (R83). -/
def Line.level (l : Line) : Level := electrical l.polarity l.logical

/-- The logical state of a line at its safe level (R83). -/
def Line.safeLogical (l : Line) : Logical := logicalFor l.polarity l.safe

/-! ## Actions (R84, R85) -/

/-- A line after an action. `width` and `fresh` matter to PULSE only: the width of the firing slot, and whether the
load is by a fire at a TB0 advance whose base tick the line unit has not taken (R87). -/
def Line.act (l : Line) (a : Action) (width : Half) (fresh : Bool) : Line :=
  match a with
  | .none => l
  | .set => { l with logical := .active, countdown := 0 }
  | .clear => { l with logical := .inactive, countdown := 0 }
  | .toggle => { l with logical := if l.logical = .active then .inactive else .active, countdown := 0 }
  | .pulse => { l with logical := .active, countdown := width, fresh := fresh }

/-- The line unit's answer to an action: a PULSE that finds a countdown running reloads it (R85). -/
def Line.reloads (l : Line) (a : Action) : Bool := decide (a = .pulse ∧ l.countdown ≠ 0)

/-! ## Ownership (R89 to R92) -/

/-- Slot `x` would be a holding owner of line `l`: ARMED or WAITING, action not NONE, line field naming `l` (R89). -/
def State.holds (s : State) (l : LineNo) (x : SlotNo) : Bool :=
  decide (((s.slot x).run.state = .armed ∨ (s.slot x).run.state = .waiting) ∧ (s.slot x).config.action ≠ .none ∧
    (s.slot x).config.line = l)

/-- The line has a holding owner (R89). -/
def State.ownerHolds (s : State) (l : LineNo) : Bool :=
  match (s.line l).owner with
  | some o => s.holds l o
  | none => false

/-- A claim is refused when another slot is the holding owner (R91). -/
def State.claimRefused (s : State) (x : SlotNo) (l : LineNo) : Bool :=
  decide ((s.line l).owner ≠ some x) && s.ownerHolds l

/-- A granted claim: the slot becomes owner and the forced flag is cleared (R91). -/
def Line.granted (l : Line) (x : SlotNo) : Line := { l with owner := some x, forced := false }

/-- The claim of a slot on line `l`: the state with the claim granted, or none for LINE_BUSY (R91). -/
def State.claim (s : State) (x : SlotNo) (l : LineNo) : Option State :=
  if s.claimRefused x l then none else some (s.setLine l ((s.line l).granted x))

/-- Undo a claim: the owner returns to the value it had before; the forced flag stays clear (R92). -/
def State.undoClaim (s : State) (l : LineNo) (before : Option SlotNo) : State :=
  s.setLine l { s.line l with owner := before }

/-- A release by slot `x`: the owner is cleared if it is `x` and no pulse is pending (R90). -/
def Line.released (l : Line) (x : SlotNo) : Line :=
  if l.owner = some x ∧ l.countdown = 0 then { l with owner := none } else l

/-- The release of a slot's line, asked for when a slot whose action is not NONE returns to HELD (R90). -/
def State.releaseLine (s : State) (x : SlotNo) : State :=
  let c := (s.slot x).config
  if c.action = .none then s else s.setLine c.line ((s.line c.line).released x)

/-- The line action of a fire of slot `x`, the first step of the fire (R62). -/
def State.actOnLine (s : State) (x : SlotNo) (fresh : Bool) : State :=
  let c := (s.slot x).config
  if c.action = .none then s else s.setLine c.line ((s.line c.line).act c.action c.width fresh)

/-- The line unit's answer to the action of a fire of slot `x`: a pulse was reloaded (R62). -/
def State.fireReloads (s : State) (x : SlotNo) : Bool :=
  let c := (s.slot x).config
  (s.line c.line).reloads c.action

/-- The cut of CANCEL with CUT: the countdown to 0 and the line INACTIVE, where the slot owns its line (R97). -/
def Line.cut (l : Line) (x : SlotNo) : Line :=
  if l.owner = some x then { l with logical := .inactive, countdown := 0 } else l

/-- The cut on the line of slot `x`; a slot whose action is NONE owns no line to cut (R67, R97). -/
def State.cutLine (s : State) (x : SlotNo) : State :=
  let c := (s.slot x).config
  if c.action = .none then s else s.setLine c.line ((s.line c.line).cut x)

/-! ## The base tick (R86, R87) -/

/-- A line as the line unit takes a base tick: a fresh load is left unlowered and its marker cleared; another nonzero
countdown is lowered, and where it reaches 0 the pulse ends, the owner kept only if it is a holding owner. -/
def Line.tick (l : Line) (ownerHolds : Bool) : Line :=
  if l.fresh then { l with fresh := false }
  else if l.countdown = 0 then l
  else if l.countdown = 1 then
    { l with countdown := 0, logical := .inactive, owner := if ownerHolds then l.owner else none }
  else { l with countdown := l.countdown - 1 }

/-- The line unit takes a base tick (R86). -/
def State.lineTick (s : State) : State := s.withLines (bankMap (fun i l => l.tick (s.ownerHolds i)) s.lines)

/-! ## Commands, stop and soft reset on a line -/

/-- A line forced by FORCE LINE (R94). -/
def Line.force (l : Line) (v : Logical) : Line := { l with logical := v, forced := true }

/-- A line configured by CONFIGURE LINE: INACTIVE, or at the new safe level while STOP# is asserted (R95). -/
def Line.configure (l : Line) (p : Polarity) (safe : Level) (stopped : Bool) : Line :=
  { l with
    polarity := p
    safe := safe
    forced := false
    logical := if stopped then logicalFor p safe else .inactive }

/-- A line at the STOP# assertion: no owner, no countdown, not forced, at its safe level (R100, R170). -/
def Line.stopped (l : Line) : Line :=
  { l with owner := none, countdown := 0, forced := false, logical := l.safeLogical }

/-- A line at a soft reset: as at the stop, and the fresh-load marker cleared (R87, R99). -/
def Line.softReset (l : Line) : Line := { l.stopped with fresh := false }

/-- Any line has a nonzero pulse countdown (R3). -/
def State.pulsePending (s : State) : Bool := (List.finRange 16).any fun l => decide ((s.line l).countdown ≠ 0)

end Sys2Proof.Machine
end

