-- ==== Sys2Proof/Machine/Scheduling.lean ====
section
/-! DEFINITION. The scheduler (chapters 4 and 5): the arm attempt, wait arming, the fire with its chain attempt,
and disarm. -/

namespace Sys2Proof.Machine

/-- The outcomes of block operations (0.4.5, Table 9-2). -/
inductive OpOutcome where
  | none
  | stopped
  | notHeld
  | notArmed
  | badOffset
  | lineBusy
  | dropped
  | tbBusy
  deriving DecidableEq, Repr

/-- The error code that an outcome is mapped to (Table 9-2). -/
def OpOutcome.error : OpOutcome → ErrorCode
  | .none => .none
  | .stopped => .stopped
  | .notHeld => .badState
  | .notArmed => .badState
  | .badOffset => .badParam
  | .lineBusy => .lineBusy
  | .dropped => .dropped
  | .tbBusy => .tbBusy

/-- An operation's outcome with the state it leaves. -/
structure Answer where
  outcome : OpOutcome
  state : State
  deriving DecidableEq, Repr

/-! ## Run parts (Tables 2-4 and 2-6) -/

/-- Starting remaining fires (Table 2-4). -/
def SlotConfig.startRemaining (c : SlotConfig) : Half := if c.period = 0 then 1 else c.repeats

/-- Starting unlimited flag (Table 2-4). -/
def SlotConfig.startUnlimited (c : SlotConfig) : Bool := decide (c.period ≠ 0 ∧ c.repeats = 0)

/-- The run part on entry to ARMED from HELD (Table 2-6). -/
def SlotConfig.armedRun (c : SlotConfig) (due : Word) : RunPart where
  state := .armed
  bound := none
  due := due
  remaining := c.startRemaining
  unlimited := c.startUnlimited

/-- The run part on entry to WAITING (Table 2-6). -/
def SlotConfig.waitingRun (c : SlotConfig) (t : TrigNo) : RunPart where
  state := .waiting
  bound := some t
  due := 0
  remaining := c.startRemaining
  unlimited := c.startUnlimited

/-- The run part on entry to ARMED from WAITING: remaining fires and unlimited are kept (Table 2-6). -/
def RunPart.boundRun (r : RunPart) (due : Word) : RunPart :=
  { r with state := .armed, bound := none, due := due }

/-! ## Reports of a slot (Tables 8-3 and 8-4) -/

/-- A report in the slot's own name, with the given kind and value; `at_` is the slot's counter now, the other
flags are clear and aux is FFh. -/
def State.slotReport (s : State) (x : SlotNo) (kind : ReportKind) (value : Word) : Report where
  kind := kind
  flags :=
    { timebase := (s.slot x).config.timebase
      overlap := false
      final := false
      noSlot := false
      unlimited := false
      cause := .none }
  slot := some x
  tag := (s.slot x).config.tag
  value := value
  at_ := s.now (s.slot x).config.timebase
  remaining := 0
  lost := 0
  aux := .none

/-! ## The arm attempt's checks and claim (R54, R59) -/

/-- A TB0 PULSE slot whose nonzero period is less than its width (R19). -/
def SlotConfig.overlapsItself (c : SlotConfig) : Bool :=
  decide (c.timebase = .tb0 ∧ c.action = .pulse ∧ c.period ≠ 0 ∧ c.period.toNat < c.width.toNat)

/-- The third check of Table 4-2 fails. -/
def SlotConfig.badOffset (c : SlotConfig) (mode : ArmMode) : Bool :=
  (match mode with
    | .absolute => false
    | .relative => decide (2 ^ 31 ≤ c.offset.toNat)
    | .chain => decide (c.offset = 0 ∨ 2 ^ 31 ≤ c.offset.toNat)) ||
    c.overlapsItself

/-- The first of the checks stop, state and offset that fails, in the order of Table 4-2. -/
def State.armRefusal (s : State) (mode : ArmMode) (x : SlotNo) : Option OpOutcome :=
  if s.stopAsserted then some .stopped
  else if (s.slot x).run.state ≠ .held then some .notHeld
  else if (s.slot x).config.badOffset mode then some .badOffset
  else none

/-- The fourth check: a slot whose action is not NONE claims its line (R54, R91). -/
def State.claimFor (s : State) (x : SlotNo) : Option State :=
  let c := (s.slot x).config
  if c.action = .none then some s else s.claim x c.line

/-- The four checks of Table 4-2 in order: the outcome of the first that fails, or the state with the line
claimed. -/
def State.passChecks (s : State) (mode : ArmMode) (x : SlotNo) : Except OpOutcome State :=
  match s.armRefusal mode x with
  | some o => .error o
  | none =>
    match s.claimFor x with
    | some s' => .ok s'
    | none => .error .lineBusy

/-! ## Chain attempt (R65, R73) -/

/-- Insert a slot whose due point is not reached: ARMED and in its due list (R55). -/
def State.armInto (s : State) (x : SlotNo) (due : Word) : State :=
  let c := (s.slot x).config
  (s.setRun x (c.armedRun due)).insertDue c.timebase x

/-- The arm attempt in chain mode: the due point, at least one advance ahead, is never reached at the attempt, so a
slot that passes is always inserted (R55, R73). -/
def State.chainAttempt (s : State) (y : SlotNo) : Except OpOutcome State :=
  let c := (s.slot y).config
  match s.passChecks .chain y with
  | .error o => .error o
  | .ok s' => .ok (s'.armInto y (s'.now c.timebase + c.offset))

/-- The chain cause of a refused chain attempt (R75); the stop check passes in every chain attempt (R73). -/
def OpOutcome.cause : OpOutcome → ChainCause
  | .notHeld => .notHeld
  | .lineBusy => .lineBusy
  | .badOffset => .badOffset
  | .none | .stopped | .notArmed | .dropped | .tbBusy => .none

/-! ## The fire (R62 to R65) -/

/-- This fire is the slot's last (R64). -/
def Slot.lastFire (x : Slot) : Bool :=
  decide (x.config.period = 0 ∨ (x.run.unlimited = false ∧ x.run.remaining = 1))

/-- Remaining fires after the countdown of a fire (R25, R64). -/
def Slot.remainingAfter (x : Slot) : Half :=
  if x.lastFire then 0 else if x.run.unlimited then 0 else x.run.remaining - 1

/-- The report of a fire, without the reports' own lost field (R63). -/
def State.fireReport (s : State) (x : SlotNo) (kind : ReportKind) : Report :=
  let r := s.slotReport x kind (s.slot x).run.due
  { r with
    flags :=
      { r.flags with
        overlap := s.fireReloads x
        final := (s.slot x).lastFire
        unlimited := (s.slot x).run.unlimited }
    remaining := (s.slot x).remainingAfter }

/-- The CHAIN_FAULT report of a fire of `x` whose chain attempt on its successor gave `cause` (R75). -/
def State.chainFaultReport (s : State) (x : SlotNo) (cause : ChainCause) : Report :=
  let r := s.fireReport x .chainFault
  { r with
    flags := { r.flags with overlap := false, cause := cause }
    aux := .successor (s.slot x).config.successor }

/-- Step 3 of a fire (R64): the last fire returns the slot to HELD and releases its line; otherwise the slot is
re-inserted one period after the counter at the fire. -/
def State.countDown (s : State) (x : SlotNo) : State :=
  let sl := s.slot x
  let tb := sl.config.timebase
  if sl.lastFire then
    (((s.removeFrom (.due tb) x).setRun x .held)).releaseLine x
  else
    ((s.removeFrom (.due tb) x).setRun x
      { sl.run with remaining := sl.remainingAfter, due := s.now tb + sl.config.period }).insertDue tb x

/-- Step 4 of a fire (R65, R75, R76): the chain attempt on `successor`; a refusal at the state, offset or line
check posts `fault`. -/
def State.chainFrom (s : State) (successor : SlotNo) (fault : ChainCause → Report) : State :=
  match s.chainAttempt successor with
  | .ok s' => s'
  | .error .stopped => s
  | .error o => s.post (fault o.cause)

/-- Steps 1 to 3 of the fire of slot `x` (R62): line action, report, repeat countdown. `fresh` marks a fire at a TB0
advance whose base tick the line unit has not yet taken (R87). -/
def State.fireOwn (s : State) (x : SlotNo) (kind : ReportKind) (fresh : Bool) : State :=
  ((s.actOnLine x fresh).postIf (s.slot x).config.reportEnable (s.fireReport x kind)).countDown x

/-- The fire of slot `x` (R62): its own three steps, then the chain attempt where chain enable is set (R65). -/
def State.fire (s : State) (x : SlotNo) (kind : ReportKind) (fresh : Bool) : State :=
  let c := (s.slot x).config
  let s3 := s.fireOwn x kind fresh
  if c.chainEnable then s3.chainFrom c.successor (s.chainFaultReport x) else s3

/-! ## The arm attempt (R53 to R58) -/

/-- The due point that an arm attempt computes (R55). -/
def State.armDue (s : State) (mode : ArmMode) (x : SlotNo) : Word :=
  let c := (s.slot x).config
  match mode with
  | .absolute => c.offset
  | .relative | .chain => s.now c.timebase + c.offset

/-- An arm attempt dropped for lateness (R58): the claim undone, DROPPED posted, the slot still HELD. `before` is
the owner the slot's line had before the claim. -/
def State.dropLate (s : State) (x : SlotNo) (due : Word) (before : Option SlotNo) : State :=
  let c := (s.slot x).config
  (if c.action = .none then s else s.undoClaim c.line before).postIf c.reportEnable (s.slotReport x .dropped due)

/-- The arm attempt in absolute or relative mode (R53 to R58). -/
def State.armAttempt (s : State) (mode : ArmMode) (x : SlotNo) : Answer :=
  let c := (s.slot x).config
  let due := s.armDue mode x
  match s.passChecks mode x with
  | .error o => ⟨o, s⟩
  | .ok s' =>
    if reached (s.now c.timebase) due = false then ⟨.none, s'.armInto x due⟩
    else if due = s.now c.timebase then ⟨.none, (s'.setRun x (c.armedRun due)).fire x .fired false⟩
    else
      match c.latePolicy with
      | .fire => ⟨.none, (s'.setRun x (c.armedRun due)).fire x .late false⟩
      | .drop => ⟨.dropped, s'.dropLate x due (s.line c.line).owner⟩

/-! ## Wait arming (R59) -/

/-- Wait arming of slot `x` on trigger `t`: the checks of the arm attempt with the relative range, the claim, and the
tail of the wait list (R59). -/
def State.waitArm (s : State) (x : SlotNo) (t : TrigNo) : Answer :=
  match s.passChecks .relative x with
  | .error o => ⟨o, s⟩
  | .ok s' =>
    ⟨.none, (s'.setRun x ((s.slot x).config.waitingRun t)).setList (.wait t) (s'.list (.wait t) ++ [x])⟩

/-! ## Disarm (R66, R67) -/

/-- The report of a disarm: value is the due point before it for an ARMED slot and 0 for a WAITING one (R66). -/
def State.disarmReport (s : State) (x : SlotNo) (kind : ReportKind) (aux : Aux) : Report :=
  let run := (s.slot x).run
  let r := s.slotReport x kind (if run.state = .armed then run.due else 0)
  { r with flags := { r.flags with final := true, unlimited := run.unlimited }, aux := aux }

/-- The slot leaves list `r` and becomes HELD (R66). -/
def State.toHeld (s : State) (r : ListRef) (x : SlotNo) : State := (s.removeFrom r x).setRun x .held

/-- Disarm by CANCEL or FLUSH TRIGGER (R66, R67): the slot leaves its list, the line is cut where CUT is asked, then
released, and CANCELLED is posted. -/
def State.cancelSlot (s : State) (r : ListRef) (x : SlotNo) (cut : Bool) (aux : Aux) : State :=
  let s1 := s.toHeld r x
  let s2 := if cut then s1.cutLine x else s1
  (s2.releaseLine x).postIf (s.slot x).config.reportEnable (s.disarmReport x .cancelled aux)

/-- Disarm by the STOP# assertion (R66, R169): no release request, STOPPED posted. -/
def State.stopSlot (s : State) (r : ListRef) (x : SlotNo) : State :=
  (s.toHeld r x).postIf (s.slot x).config.reportEnable (s.disarmReport x .stopped .none)

/-- The list an ARMED or WAITING slot stands in (R49); none for HELD and FREE. -/
def Slot.standsIn (x : Slot) : Option ListRef :=
  match x.run.state with
  | .armed => some (.due x.config.timebase)
  | .waiting => x.run.bound.map .wait
  | .held | .free => none

/-- CANCEL at the scheduler (R67). -/
def State.cancel (s : State) (x : SlotNo) (cut : Bool) : Answer :=
  match (s.slot x).standsIn with
  | some r => ⟨.none, s.cancelSlot r x cut .none⟩
  | none => ⟨.notArmed, s⟩

/-- FLUSH TRIGGER at the scheduler: every slot of the wait list is disarmed, head first (R111). -/
def State.flush (s : State) (t : TrigNo) : State :=
  (s.list (.wait t)).foldl (fun s' x => s'.cancelSlot (.wait t) x false (.trigger t)) s

/-! ## Advance (R4, R61) -/

/-- The run of entries that an advance fires: those of the due list whose due point is the new counter (R61). -/
def State.dueNow (s : State) (tb : Timebase) : List SlotNo :=
  (s.list (.due tb)).filter fun x => decide ((s.slot x).run.due = s.now tb)

/-- Fire a run of entries in order, each fire whole before the next begins (R61). -/
def State.fireRun (s : State) (xs : List SlotNo) (fresh : Bool) : State :=
  xs.foldl (fun s' x => s'.fire x .fired fresh) s

/-- The counter of a timebase raised by one, modulo 2^32 (R4, R5). -/
def State.countUp (s : State) (tb : Timebase) : State :=
  s.setCounter tb { s.counterOf tb with count := s.now tb + 1 }

/-- A base tick (TB0) or a CNT rising edge (TB1) reaches its timebase: while it is RUNNING it is an advance, and while it
is HELD nothing is counted (R4, R5, R61). -/
def State.advance (s : State) (tb : Timebase) (fresh : Bool) : State :=
  match (s.counterOf tb).run with
  | .held => s
  | .running => (s.countUp tb).fireRun ((s.countUp tb).dueNow tb) fresh

/-! ## Bind (R105 to R108) -/

/-- The BOUND report of slot `x` at an edge on trigger `t` (R106). -/
def State.boundReport (s : State) (x : SlotNo) (t : TrigNo) : Report :=
  let r := s.slotReport x .bound (s.now (s.slot x).config.timebase)
  { r with
    flags := { r.flags with unlimited := (s.slot x).run.unlimited }
    remaining := (s.slot x).run.remaining
    aux := .trigger t }

/-- The UNCLAIMED report of an edge on trigger `t`: the TB0 capture in value, the TB1 capture in at (R108). -/
def State.unclaimedReport (s : State) (t : TrigNo) : Report where
  kind := .unclaimed
  flags :=
    { timebase := .tb0, overlap := false, final := false, noSlot := true, unlimited := false, cause := .none }
  slot := none
  tag := 0
  value := s.now .tb0
  at_ := s.now .tb1
  remaining := 0
  lost := 0
  aux := .trigger t

/-- The bind of the head slot `x`, with `rest` behind it, at an accepted edge on trigger `t`: BOUND first; an offset of
0 fires it within the edge event, any other inserts it at the capture plus its offset (R106, R107). -/
def State.bind (s : State) (t : TrigNo) (x : SlotNo) (rest : List SlotNo) : State :=
  let c := (s.slot x).config
  let s1 := (s.setList (.wait t) rest).postIf c.reportEnable (s.boundReport x t)
  let s2 := s1.setRun x ((s.slot x).run.boundRun (s.now c.timebase + c.offset))
  if c.offset = 0 then s2.fire x .fired false else s2.insertDue c.timebase x

/-- The scheduler takes an accepted edge on trigger `t` (R105): the head is bound, or the edge is unclaimed. -/
def State.takeEdge (s : State) (t : TrigNo) : State :=
  match s.list (.wait t) with
  | x :: rest => s.bind t x rest
  | [] => s.postIf (s.trig t).reportUnclaimed (s.unclaimedReport t)

/-! ## Due-list snapshot (R69) -/

/-- The snapshot entry of a slot (R69). -/
def State.dueEntry (s : State) (x : SlotNo) : DueEntry where
  slot := x
  timebase := (s.slot x).config.timebase
  periodic := decide ((s.slot x).config.period ≠ 0)
  unlimited := (s.slot x).run.unlimited
  due := (s.slot x).run.due
  remaining := (s.slot x).run.remaining

/-- The copy of a due list, in list order (R69). -/
def State.dueSnapshot (s : State) (tb : Timebase) : List DueEntry := (s.list (.due tb)).map s.dueEntry

end Sys2Proof.Machine
end

