-- ==== Sys2Proof/Machine/EngineUnit.lean ====
section
/-! DEFINITION. The command engine (chapter 9): acceptance and refusal, the pending event, completion, the blocks of
the transfer port, ABORT. -/

namespace Sys2Proof.Machine

/-- Replace the parameter registers. -/
def State.withParams (s : State) (p : Params) : State := s.withEngine { s.engine with params := p }

/-- The command in progress, by its code. -/
def Engine.command (e : Engine) : Option Command := e.current.bind fun c => commandOf c.code

/-- The latched parameters of the command in progress (all 0 where there is none). -/
def Engine.latched (e : Engine) : Params :=
  match e.current with
  | some c => c.params
  | none => .zero

/-! ## Acceptance (R129, R130) -/

/-- The command is counted: its acceptance sets REMAIN to COUNT (R129). -/
def counted (c : Option Command) : Bool :=
  decide (c = some .readReports ∨ c = some .readDueList ∨ c = some .armBatch)

/-- The checks that a transfer command makes in its acceptance event (R151, R153, R155). -/
def transferCheck (c : Option Command) (p : Params) : ErrorCode :=
  match c with
  | some .readReports | some .armBatch => if p.count = 0 ∨ 64 < p.count.toNat then .badParam else .none
  | some .readDueList =>
    if (optionOne p.option).isNone then .badParam
    else if p.count = 0 ∨ 128 < p.count.toNat then .badParam
    else .none
  | _ => .none

/-- The snapshot taken at the acceptance of a code: the named due list for a READ DUE LIST whose checks pass (R69,
R129). -/
def State.snapshotAt (s : State) (code : Byte) : List DueEntry :=
  match commandOf code, optionOne s.engine.params.option with
  | some .readDueList, some tb =>
    if transferCheck (some .readDueList) s.engine.params = .none then s.dueSnapshot tb else []
  | _, _ => []

/-- A write at COMMAND: accepted while the engine is IDLE (R129), refused with REJ otherwise (R130). -/
def State.writeCommand (s : State) (code : Byte) : State :=
  if s.engine.phase = .idle then
    s.withEngine
      { s.engine with
        current := some { code := code, params := s.engine.params }
        phase := .engine
        err := false
        cmdp := false
        error := .none
        remain := if counted (commandOf code) then s.engine.params.count else 0
        snapshot := s.snapshotAt code
        delivered := 0 }
  else s.withEngine { s.engine with rej := true }

/-! ## Pending event and completion (R132) -/

/-- The event that the engine holds pending for the command in progress (R132). -/
inductive EngineEvent where
  | none
  | completion
  | preparation
  | opening
  | processing
  deriving DecidableEq, Repr

/-- The pending event: in the ENGINE phase, the completion of a command without a transfer phase or with a failed
acceptance check, a block preparation, the opening of the first block of ARM BATCH, or a block processing once
the block's last byte is written (R129, R132). -/
def Engine.pendingEvent (e : Engine) : EngineEvent :=
  if e.phase = .engine then
    match e.command with
    | some .readReports | some .readDueList =>
      if transferCheck e.command e.latched = .none then .preparation else .completion
    | some .armBatch =>
      if transferCheck e.command e.latched = .none then (if e.blockLength = 0 then .opening else .processing)
      else .completion
    | _ => .completion
  else .none

/-- The engine with no command in progress and its buffers emptied, the outcome recorded (R132). -/
def Engine.finish (e : Engine) (err : ErrorCode) : Engine :=
  { e with
    current := none
    phase := .idle
    error := err
    err := decide (err ≠ .none)
    cmdp := true
    buffer := .empty
    blockLength := 0
    bytePos := 0
    snapshot := []
    delivered := 0 }

/-- Completion at the engine (R132). -/
def State.finish (s : State) (err : ErrorCode) : State := s.withEngine (s.engine.finish err)

/-- ABORT (R142): no effect while the engine is IDLE, otherwise a completion ABORTED. -/
def State.abortCommand (s : State) : State := if s.engine.phase = .idle then s else s.finish .aborted

/-! ## Blocks (R137 to R140) -/

/-- Open a block of `k` entries with the transfer buffer given (R137, R139). -/
def Engine.openBlock (e : Engine) (k : Nat) (b : TransferBuffer) : Engine :=
  { e with phase := .transfer, cmdp := true, buffer := b, blockLength := k, bytePos := 0 }

/-- Block length of READ REPORTS (R137). -/
def State.reportBlock (s : State) : Nat :=
  min s.engine.blockSize (min s.engine.remain.toNat s.reports.entries.length)

/-- Block length of READ DUE LIST (R137). -/
def State.dueBlock (s : State) : Nat :=
  min s.engine.blockSize (min s.engine.remain.toNat (s.engine.snapshot.length - s.engine.delivered))

/-- Block length of ARM BATCH (R139). -/
def Engine.slotBlock (e : Engine) : Nat := min e.blockSize e.remain.toNat

/-- A block preparation of READ REPORTS (R123, R137). -/
def State.prepareReports (s : State) : State :=
  let k := s.reportBlock
  if k = 0 then s.finish .none else s.withEngine (s.engine.openBlock k (.reports (s.reports.entries.take k)))

/-- A block preparation of READ DUE LIST (R137). -/
def State.prepareDues (s : State) : State :=
  let k := s.dueBlock
  if k = 0 then s.finish .none
  else s.withEngine (s.engine.openBlock k (.dues ((s.engine.snapshot.drop s.engine.delivered).take k)))

/-- Open the next block of ARM BATCH (R139). -/
def State.openSlots (s : State) : State := s.withEngine (s.engine.openBlock s.engine.slotBlock (.slots []))

/-- What the entries of a block of ARM BATCH come to: all armed, or the first failure with its byte. -/
inductive BatchResult where
  | armed
  | failed (err : ErrorCode) (byte : Byte)
  deriving DecidableEq, Repr

/-- REMAIN lowered by one (R136). -/
def State.lowerRemain (s : State) : State := s.withEngine { s.engine with remain := lower s.engine.remain }

/-- The arm attempts of a block, in the order the bytes were written, up to the first failure (R140, R152). -/
def State.armEntries (s : State) (mode : ArmMode) : List Byte → State × BatchResult
  | [] => (s, .armed)
  | b :: bs =>
    match slotOf b with
    | none => (s, .failed .badNumber b)
    | some x =>
      match s.armAttempt mode x with
      | ⟨.none, s'⟩ => s'.lowerRemain.armEntries mode bs
      | ⟨o, s'⟩ => (s', .failed o.error b)

/-- The bytes of a transfer buffer, in the layouts of 12.3. -/
def TransferBuffer.bytes : TransferBuffer → List Byte
  | .empty => []
  | .reports es => es.flatMap reportImage
  | .dues es => es.flatMap dueImage
  | .slots bs => bs

/-- A block processing of ARM BATCH (R140). -/
def State.processBlock (s : State) : State :=
  match s.armEntries (optionMode s.engine.latched.option) s.engine.buffer.bytes with
  | (s', .failed err b) => (s'.withParams { s'.engine.params with pSlot := b }).finish err
  | (s', .armed) => if s'.engine.remain = 0 then s'.finish .none else s'.openSlots

/-- Bytes per entry of the block that a read-direction command reads (R135). -/
def Engine.entryBytes (e : Engine) : Nat := if e.command = some .readReports then 16 else 8

/-- A read-direction block is open (R138). -/
def Engine.reading (e : Engine) : Bool :=
  decide (e.phase = .transfer ∧ (e.command = some .readReports ∨ e.command = some .readDueList))

/-- A block of ARM BATCH is open (R139). -/
def Engine.writing (e : Engine) : Bool := decide (e.phase = .transfer ∧ e.command = some .armBatch)

/-- The byte that a read of TRANSFER PORT returns: 00h where no read-direction block is open (R138, R139, R141). -/
def State.transferByte (s : State) : Byte :=
  if s.engine.reading then s.engine.buffer.bytes.getD s.engine.bytePos 0 else 0

/-- The read of an entry's last byte delivers it: READ REPORTS removes the head of the queue, READ DUE LIST counts the
snapshot entry, and REMAIN is lowered (R123, R138). -/
def State.deliver (s : State) : State :=
  if s.engine.command = some .readReports then
    (s.withReports { s.reports with entries := s.reports.entries.tail }).lowerRemain
  else (s.withEngine { s.engine with delivered := s.engine.delivered + 1 }).lowerRemain

/-- The end of a read block's bytes: the ENGINE phase, the buffer emptied (R138). -/
def Engine.endBlock (e : Engine) : Engine :=
  { e with phase := .engine, buffer := .empty, blockLength := 0, bytePos := 0 }

/-- The effects of a read of TRANSFER PORT that follow the byte returned (R138, R141). -/
def State.transferRead (s : State) : State :=
  if s.engine.reading then
    let pos := s.engine.bytePos + 1
    let s1 := if pos % s.engine.entryBytes = 0 then s.deliver else s
    if s.engine.entryBytes * s.engine.blockLength ≤ pos then s1.withEngine s1.engine.endBlock
    else s1.withEngine { s1.engine with bytePos := pos }
  else s

/-- A write of TRANSFER PORT (R139, R141): in a block of ARM BATCH the byte is stored, and the k-th ends the block;
anywhere else there is no effect. -/
def State.transferWrite (s : State) (b : Byte) : State :=
  if s.engine.writing then
    let buffer := TransferBuffer.slots (s.engine.buffer.bytes ++ [b])
    if s.engine.blockLength ≤ s.engine.bytePos + 1 then
      s.withEngine { s.engine with phase := .engine, buffer := buffer, bytePos := 0 }
    else s.withEngine { s.engine with buffer := buffer, bytePos := s.engine.bytePos + 1 }
  else s

/-- The command engine at a soft reset (R144): B is kept. -/
def Engine.softReset (e : Engine) : Engine := { Engine.powerOn with blockSize := e.blockSize }

end Sys2Proof.Machine
end

