-- ==== Sys2Proof/Machine/InputUnits.lean ====
section
/-! DEFINITION. The blocks on the machine's pins: the base tick and the CNT input (chapter 1), the trigger channels
(chapter 7), and the stop monitor (chapter 11). -/

namespace Sys2Proof.Machine

/-! ## Timebase unit -/

/-- A sample of CNT finds `v` (R5): the CNT level follows, and a rising edge reaches TB1. -/
def State.cntSample (s : State) (v : Level) : State :=
  let s' := s.withTimebase { s.timebase with cntLevel := v }
  if s.timebase.cntLevel = .low ∧ v = .high then s'.advance .tb1 false else s'

/-- A rising edge of CNT is taken: the level is high and the edge reaches TB1 (R5, R61). -/
def State.cntRise (s : State) : State :=
  (s.withTimebase { s.timebase with cntLevel := .high }).advance .tb1 false

/-- The base tick count restarts from zero (R1, R3). -/
def State.restartTick (s : State) : State := s.withTimebase { s.timebase with clkCount := 0 }

/-- The commands that one base tick of the block's own CLK count is: the line unit and the trigger unit take it, and,
while TB0 is RUNNING, the scheduler takes the advance before them or after them (R2, R88). -/
def State.tickEvents (s : State) : List Instr :=
  match s.timebase.tb0.run with
  | .held => [.baseTick]
  | .running =>
    if Config.lineUnitFirst s.freeIndex then [.baseTick, .advance (.tb0 true)]
    else [.advance (.tb0 false), .baseTick]

/-- One CLK period passes while no command waits (R1): the count rises, and at the period of the tick code it restarts
and a base tick is delivered. While RESET# is held nothing happens (R13). -/
def State.idle (s : State) : State :=
  if s.resetHeld then s
  else if s.timebase.clkCount + 1 < Config.clkPeriods s.timebase.tickCode then
    s.withTimebase { s.timebase with clkCount := s.timebase.clkCount + 1 }
  else
    ((s.restartTick).withFreeIndex (s.freeIndex + 1)).withPending s.tickEvents

/-! ## Trigger unit -/

/-- The edge that the change to level `v` is, qualified by an edge select (R102). -/
def EdgeSelect.qualifies (e : EdgeSelect) (v : Level) : Bool :=
  match e, v with
  | .none, _ => false
  | .rising, .high => true
  | .rising, .low => false
  | .falling, .high => false
  | .falling, .low => true
  | .both, _ => true

/-- A qualified edge at a channel (R103): inside a lockout window it is ignored and counted; otherwise it opens a window
and goes on to capture and bind. -/
def State.qualifiedEdge (s : State) (t : TrigNo) : State :=
  let c := s.trig t
  if c.lockLeft ≠ 0 then s.setTrig t { c with bounce := raise255 c.bounce }
  else (s.setTrig t { c with lockLeft := c.lockLength }).takeEdge t

/-- A sample of TRGn finds `v` (R101): the pin level follows, and a change is an edge, qualified by R102. -/
def State.trigSample (s : State) (t : TrigNo) (v : Level) : State :=
  let c := s.trig t
  let s' := s.setTrig t { c with pin := v }
  if c.pin ≠ v ∧ c.select.qualifies v then s'.qualifiedEdge t else s'

/-- The trigger unit takes a base tick (R104). -/
def State.trigTick (s : State) : State :=
  s.withTrigs (bankMap (fun _ c => { c with lockLeft := lower c.lockLeft }) s.trigs)

/-- A channel at a soft reset (R114). -/
def Channel.softReset (c : Channel) : Channel := { c with lockLeft := 0, bounce := 0 }

/-! ## Stop monitor -/

/-- The lists in the order in which the assertion disarms them (R169). -/
def stopOrder : List ListRef := [.due .tb0, .due .tb1, .wait 0, .wait 1, .wait 2, .wait 3]

/-- Disarm every slot of a list from its head (R169). -/
def State.stopList (s : State) (r : ListRef) : State := (s.list r).foldl (fun s' x => s'.stopSlot r x) s

/-- The answers of the scheduler and the line unit to the assertion (R169, R170). -/
def State.giveUp (s : State) : State :=
  let s' := stopOrder.foldl State.stopList s
  s'.withLines (bankMap (fun _ l => l.stopped) s'.lines)

/-- An assertion of STOP# is taken (R168 to R171). While STOP# is asserted another cannot be taken: the event is then
one more sample at the STOP# level. -/
def State.assertStop (s : State) : State :=
  if s.stopAsserted then s.withStop { s.stop with qualCount := 0 }
  else s.giveUp.withStop { level := .low, qualCount := 0, stopl := true }

/-- A release of STOP# is taken: the level changes and nothing else does (R173). -/
def State.releaseStop (s : State) : State := s.withStop { s.stop with level := .high, qualCount := 0 }

/-- A sample of STOP# finds `v` (R168): at the STOP# level it sets the count to 0; the third successive sample at the
other level takes the change. -/
def State.stopSampled (s : State) (v : Level) : State :=
  if v = s.stop.level then s.withStop { s.stop with qualCount := 0 }
  else if s.stop.qualCount < 2 then s.withStop { s.stop with qualCount := s.stop.qualCount + 1 }
  else
    match v with
    | .low => s.assertStop
    | .high => s.releaseStop

end Sys2Proof.Machine
end

