-- ==== Sys2Proof/Machine/RecordUnit.lean ====
section
/-! DEFINITION. The record port (chapter 3) with the slot table's side of a commit, a snapshot and RELEASE (R27, R30,
R32). -/

namespace Sys2Proof.Machine

/-- A commit at the slot table (R27): FREE becomes HELD with the record, HELD takes the record, ARMED and WAITING refuse
it. -/
def State.commit (s : State) (x : SlotNo) (c : SlotConfig) : State × CommitResult :=
  match (s.slot x).run.state with
  | .free => (s.setSlot x { config := c, run := .held }, .accepted)
  | .held => (s.setSlot x { s.slot x with config := c }, .accepted)
  | .waiting | .armed => (s, .refusedState)

/-- A completed write image (R38, R39): format check, commit, and then the cursor advances. -/
def State.completeImage (s : State) (img : List Byte) : State :=
  let x := s.record.writeCursor
  let d :=
    match imageConfig img with
    | some c => s.commit x c
    | none => (s, .refusedFormat)
  d.1.withRecord
    { s.record with
      writeCursor := nextSlot x
      writeStaging := []
      last := .write
      result := d.2 }

/-- A write at RECORD PORT (R35, R37 to R39). -/
def State.recordWrite (s : State) (b : Byte) : State :=
  let img := s.record.writeStaging ++ [b]
  if s.record.writeStaging.length < 15 then s.withRecord { s.record with writeStaging := img, last := .write }
  else s.completeImage img

/-- A write at WRITE CURSOR (R36). -/
def State.setWriteCursor (s : State) (b : Byte) : State :=
  s.withRecord { s.record with writeCursor := cursorOf b, writeStaging := [], last := .write }

/-- The read image of a slot as it stands (R32). -/
def State.snapshotOf (s : State) (x : SlotNo) : List Byte := readImage (s.slot x)

/-- A write at READ CURSOR (R41). -/
def State.setReadCursor (s : State) (b : Byte) : State :=
  s.withRecord
    { s.record with
      readCursor := cursorOf b
      readPos := 0
      readStaging := some (s.snapshotOf (cursorOf b))
      last := .read }

/-- The image that the next read at RECORD PORT reads from: read staging, or, where it is empty, a snapshot taken now
(R43). -/
def State.readSource (s : State) : List Byte :=
  match s.record.readStaging with
  | some img => img
  | none => s.snapshotOf s.record.readCursor

/-- The position of the byte that the next read at RECORD PORT returns (R42, R43). -/
def State.readFrom (s : State) : Nat :=
  match s.record.readStaging with
  | some _ => s.record.readPos
  | none => 0

/-- The byte that a read at RECORD PORT returns (R42, R43). -/
def State.recordByte (s : State) : Byte := s.readSource.getD s.readFrom 0

/-- The effects of a read at RECORD PORT that follow the byte returned (R35, R42, R43). -/
def State.recordRead (s : State) : State :=
  if s.readFrom < 23 then
    s.withRecord
      { s.record with readPos := s.readFrom + 1, readStaging := some s.readSource, last := .read }
  else
    let y := nextSlot s.record.readCursor
    s.withRecord
      { s.record with
        readCursor := y
        readPos := 0
        readStaging := some (s.snapshotOf y)
        last := .read }

/-- The record port at a soft reset (R48). -/
def RecordPort.softReset (p : RecordPort) : RecordPort :=
  { p with writeStaging := [], readPos := 0, readStaging := none, result := .none }

/-- RELEASE of a HELD slot at the slot table (R30). -/
def State.freeSlot (s : State) (x : SlotNo) : State := s.setSlot x .free

/-- A slot at a soft reset: ARMED and WAITING become HELD, the configuration is kept (R34). -/
def Slot.softReset (x : Slot) : Slot :=
  match x.run.state with
  | .armed | .waiting => { x with run := .held }
  | .held | .free => x

end Sys2Proof.Machine
end

