-- ==== Sys2Proof/Machine/Completions.lean ====
section
/-! DEFINITION. The command reference (chapter 10): the checks, the request and the results of each command without a
transfer phase, made in its completion event on the latched parameters (R132, R146). -/

namespace Sys2Proof.Machine

/-- A command's effect at the owning block, with its error code. -/
structure Done where
  state : State
  error : ErrorCode
  deriving DecidableEq, Repr

/-- The answer of a block operation, its outcome mapped to an error code (Table 9-2). -/
def Answer.done (a : Answer) : Done := ⟨a.state, a.outcome.error⟩

/-- ARM (R147). -/
def State.completeArm (s : State) (p : Params) : Done :=
  match slotOf p.pSlot with
  | some x => (s.armAttempt (optionMode p.option) x).done
  | none => ⟨s, .badNumber⟩

/-- ARM ON TRIGGER (R148): the slot number is checked before the trigger number. -/
def State.completeArmOnTrigger (s : State) (p : Params) : Done :=
  match slotOf p.pSlot, trigOf p.option with
  | some x, some t => (s.waitArm x t).done
  | _, _ => ⟨s, .badNumber⟩

/-- CANCEL (R149). -/
def State.completeCancel (s : State) (p : Params) : Done :=
  match slotOf p.pSlot with
  | some x => (s.cancel x (optionCut p.option)).done
  | none => ⟨s, .badNumber⟩

/-- RELEASE (R150, R30). -/
def State.completeRelease (s : State) (p : Params) : Done :=
  match slotOf p.pSlot with
  | some x => if (s.slot x).run.state = .held then ⟨s.freeSlot x, .none⟩ else ⟨s, .badState⟩
  | none => ⟨s, .badNumber⟩

/-- CLEAR REPORTS (R154, R125). -/
def State.completeClearReports (s : State) : Done := ⟨s.withReports s.reports.cleared, .none⟩

/-- SET TIMEBASE (R156, R10). -/
def State.completeSetTimebase (s : State) (p : Params) : Done :=
  match optionOne p.option with
  | some tb =>
    if s.list (.due tb) = [] then ⟨s.setCounter tb { s.counterOf tb with count := p.value }, .none⟩
    else ⟨s, .tbBusy⟩
  | none => ⟨s, .badParam⟩

/-- Set the run state of each named timebase (R8, R9). -/
def State.setRuns (s : State) (o : Byte) (r : RunState) : State :=
  s.withTimebase
    { s.timebase with
      tb0 := if optionNames o .tb0 then { s.timebase.tb0 with run := r } else s.timebase.tb0
      tb1 := if optionNames o .tb1 then { s.timebase.tb1 with run := r } else s.timebase.tb1 }

/-- A timebase select of NONE (R157). -/
def optionNoTimebase (o : Byte) : Bool := !optionNames o .tb0 && !optionNames o .tb1

/-- HOLD TIMEBASE (R157, R8). -/
def State.completeHold (s : State) (p : Params) : Done :=
  if optionNoTimebase p.option then ⟨s, .badParam⟩ else ⟨s.setRuns p.option .held, .none⟩

/-- RESUME TIMEBASE (R157, R9). -/
def State.completeResume (s : State) (p : Params) : Done :=
  if optionNoTimebase p.option then ⟨s, .badParam⟩ else ⟨s.setRuns p.option .running, .none⟩

/-- READ TIME (R158, R11): the results overwrite OPTION and VALUE0–VALUE3. -/
def State.completeReadTime (s : State) (p : Params) : Done :=
  match optionOne p.option with
  | some tb =>
    ⟨s.withParams { s.engine.params.withValue (s.now tb) with option := timeOption s.timebase }, .none⟩
  | none => ⟨s, .badParam⟩

/-- SET TICK (R159, R3). -/
def State.completeSetTick (s : State) (p : Params) : Done :=
  if h : p.value0.toNat < 4 then
    if s.list (.due .tb0) ≠ [] ∨ s.pulsePending then ⟨s, .tbBusy⟩
    else ⟨s.withTimebase { s.timebase with tickCode := ⟨p.value0.toNat, h⟩, clkCount := 0 }, .none⟩
  else ⟨s, .badParam⟩

/-- CONFIGURE LINE (R160, R95). -/
def State.completeConfigureLine (s : State) (p : Params) : Done :=
  match lineOf p.pSlot with
  | some l =>
    if (s.line l).owner ≠ none then ⟨s, .lineBusy⟩
    else
      ⟨s.setLine l ((s.line l).configure (optionPolarity p.option) (optionSafe p.option) s.stopAsserted), .none⟩
  | none => ⟨s, .badNumber⟩

/-- FORCE LINE (R161, R94): the stop check comes before the owner. -/
def State.completeForceLine (s : State) (p : Params) : Done :=
  match lineOf p.pSlot with
  | some l =>
    if s.stopAsserted then ⟨s, .stopped⟩
    else if (s.line l).owner ≠ none then ⟨s, .lineBusy⟩
    else ⟨s.setLine l ((s.line l).force (optionLogical p.option)), .none⟩
  | none => ⟨s, .badNumber⟩

/-- QUERY LINE (R162, R96). -/
def State.completeQueryLine (s : State) (p : Params) : Done :=
  match lineOf p.pSlot with
  | some l =>
    let r := s.line l
    ⟨s.withParams
      { s.engine.params with
        pSlot := ownerByte r.owner
        option := lineOption r
        value0 := byteOf r.countdown 0
        value1 := byteOf r.countdown 1
        value2 := 0
        value3 := 0 }, .none⟩
  | none => ⟨s, .badNumber⟩

/-- CONFIGURE TRIGGER (R163, R110). -/
def State.completeConfigureTrigger (s : State) (p : Params) : Done :=
  match trigOf p.pSlot with
  | some t =>
    ⟨s.setTrig t
      { s.trig t with
        select := optionEdge p.option
        reportUnclaimed := optionUnclaimed p.option
        lockLength := p.half }, .none⟩
  | none => ⟨s, .badNumber⟩

/-- FLUSH TRIGGER (R164, R111). -/
def State.completeFlushTrigger (s : State) (p : Params) : Done :=
  match trigOf p.pSlot with
  | some t => ⟨s.flush t, .none⟩
  | none => ⟨s, .badNumber⟩

/-- QUERY TRIGGER (R165, R112): the bounce count is set to 0 after its value is taken. -/
def State.completeQueryTrigger (s : State) (p : Params) : Done :=
  match trigOf p.pSlot with
  | some t =>
    let waiting := s.list (.wait t)
    let s' := s.withParams
      { s.engine.params with
        count := BitVec.ofNat 8 waiting.length
        value0 := (s.trig t).bounce
        value1 := ownerByte waiting.head?
        value2 := 0
        value3 := 0 }
    ⟨s'.setTrig t { s.trig t with bounce := 0 }, .none⟩
  | none => ⟨s, .badNumber⟩

/-- SET BLOCK (R166, R135). -/
def State.completeSetBlock (s : State) (p : Params) : Done :=
  if 1 ≤ p.count.toNat ∧ p.count.toNat ≤ 8 then
    ⟨s.withEngine { s.engine with blockSize := p.count.toNat }, .none⟩
  else ⟨s, .badParam⟩

/-- The effect and outcome of the command in progress at its completion event: for a transfer command, the error of
its failed acceptance check (R129); for an undefined code, BAD_COMMAND (R146). -/
def State.complete (s : State) : Done :=
  let p := s.engine.latched
  match s.engine.command with
  | none => ⟨s, .badCommand⟩
  | some .nop => ⟨s, .none⟩
  | some .arm => s.completeArm p
  | some .armOnTrigger => s.completeArmOnTrigger p
  | some .cancel => s.completeCancel p
  | some .release => s.completeRelease p
  | some .armBatch => ⟨s, transferCheck (some .armBatch) p⟩
  | some .readReports => ⟨s, transferCheck (some .readReports) p⟩
  | some .clearReports => s.completeClearReports
  | some .readDueList => ⟨s, transferCheck (some .readDueList) p⟩
  | some .setTimebase => s.completeSetTimebase p
  | some .holdTimebase => s.completeHold p
  | some .resumeTimebase => s.completeResume p
  | some .readTime => s.completeReadTime p
  | some .setTick => s.completeSetTick p
  | some .configureLine => s.completeConfigureLine p
  | some .forceLine => s.completeForceLine p
  | some .queryLine => s.completeQueryLine p
  | some .configureTrigger => s.completeConfigureTrigger p
  | some .flushTrigger => s.completeFlushTrigger p
  | some .queryTrigger => s.completeQueryTrigger p
  | some .setBlock => s.completeSetBlock p

/-- The completion event of the command in progress (R132); no effect where no completion is pending
(notes/assumptions/5.md). -/
def State.completionEvent (s : State) : State :=
  if s.engine.pendingEvent = .completion then s.complete.state.finish s.complete.error else s

/-- The block-preparation event (R137); no effect where none is pending. -/
def State.preparationEvent (s : State) : State :=
  if s.engine.pendingEvent = .preparation then
    (if s.engine.command = some .readReports then s.prepareReports else s.prepareDues)
  else s

/-- The opening of the first block of ARM BATCH (R139); no effect where it is not pending. -/
def State.openingEvent (s : State) : State :=
  if s.engine.pendingEvent = .opening then s.openSlots else s

/-- The block-processing event (R140); no effect where none is pending. -/
def State.processingEvent (s : State) : State :=
  if s.engine.pendingEvent = .processing then s.processBlock else s

end Sys2Proof.Machine
end

