-- ==== Sys2Proof/Machine/Flags.lean ====
section
/-! DEFINITION. Every flag and level that the manual gives as a view of the state: STATUS (Table 12-2), CURSOR STATE
(Table 12-3), INT ENABLE and INT (R178), LINE LEVELS and INPUTS (R180), the OUT pins (R83, R182), and the read
column of the register window (Table 12-1). -/

namespace Sys2Proof.Machine

/-! ## Status flags (Table 12-2) -/

/-- BUSY: the phase is ENGINE (Table 9-3). -/
def State.busy (s : State) : Bool := decide (s.engine.phase = .engine)

/-- XFER: the phase is TRANSFER (Table 9-3). -/
def State.xfer (s : State) : Bool := decide (s.engine.phase = .transfer)

/-- The report level (R120). -/
def State.level (s : State) : Nat := s.reports.entries.length

/-- REPL: the level is at or above the watermark (R122). -/
def State.repl (s : State) : Bool := decide (s.reports.watermark ≤ s.level)

/-- QFULL: the level is 32 (R121). -/
def State.qfull (s : State) : Bool := decide (s.level = Config.queueDepth)

/-- The byte that STATUS and ALT STATUS return (Table 12-2, R176). -/
def State.statusByte (s : State) : Byte :=
  packByte s.busy s.xfer s.engine.err s.engine.cmdp s.repl s.stop.stopl s.qfull s.engine.rej

/-! ## INT (R178) -/

/-- The byte of INT ENABLE: CMD, REPORT and STOP in bits 0 to 2, bits 7–3 0. -/
def IntEnable.byte (e : IntEnable) : Byte := packByte e.cmd e.report e.stop false false false false false

/-- The enables that a write of INT ENABLE stores: bits 7–3 are ignored. -/
def intEnableOf (b : Byte) : IntEnable where
  cmd := b.getLsbD 0
  report := b.getLsbD 1
  stop := b.getLsbD 2

/-- The CMD source is active (R178). -/
def State.intCmd (s : State) : Bool := s.engine.cmdp && s.intEnable.cmd

/-- The REPORT source is active (R178). -/
def State.intReport (s : State) : Bool := s.repl && s.intEnable.report

/-- The STOP source is active (R178). -/
def State.intStop (s : State) : Bool := s.stop.stopl && s.intEnable.stop

/-- INT is asserted, driven low; it is released while RESET# is held (R178, R182). -/
def State.intAsserted (s : State) : Bool := !s.resetHeld && (s.intCmd || s.intReport || s.intStop)

/-! ## Pins and their registers -/

/-- The electrical level of an OUT pin: low while RESET# is held (R98), otherwise the line's (R83). -/
def State.outPin (s : State) (l : LineNo) : Level := if s.resetHeld then .low else (s.line l).level

/-- A level as a bit: 1 for high (R180). -/
def levelBit (v : Level) : Bool := decide (v = .high)

/-- The bit of a line in LINE LEVELS (R180). -/
def State.lineBit (s : State) (l : LineNo) : Bool := levelBit (s.line l).level

/-- LINE LEVELS OUT0–OUT7 (R180). -/
def State.lineLevelsLow (s : State) : Byte :=
  packByte (s.lineBit 0) (s.lineBit 1) (s.lineBit 2) (s.lineBit 3) (s.lineBit 4) (s.lineBit 5) (s.lineBit 6)
    (s.lineBit 7)

/-- LINE LEVELS OUT8–OUT15 (R180). -/
def State.lineLevelsHigh (s : State) : Byte :=
  packByte (s.lineBit 8) (s.lineBit 9) (s.lineBit 10) (s.lineBit 11) (s.lineBit 12) (s.lineBit 13) (s.lineBit 14)
    (s.lineBit 15)

/-- INPUTS (R180): TRG0–TRG3 in bits 0 to 3, CNT in bit 4, STOP# in bit 5, bits 7–6 0. -/
def State.inputs (s : State) : Byte :=
  packByte (levelBit (s.trig 0).pin) (levelBit (s.trig 1).pin) (levelBit (s.trig 2).pin) (levelBit (s.trig 3).pin)
    (levelBit s.timebase.cntLevel) (levelBit s.stop.level) false false

/-! ## Registers that a read leaves unchanged -/

/-- The code of a commit result (Table 12-3). -/
def CommitResult.code : CommitResult → Nat
  | .none => 0
  | .accepted => 1
  | .refusedState => 2
  | .refusedFormat => 3

/-- CURSOR STATE (Table 12-3, R40). -/
def RecordPort.cursorState (p : RecordPort) : Byte :=
  fieldAt 0 p.writeStaging.length ||| fieldAt 4 p.result.code ||| bitAt 7 (decide (p.last = .read))

/-- The value of ERROR (Table 9-2). -/
def ErrorCode.code : ErrorCode → Byte
  | .none => 0x00
  | .badCommand => 0x01
  | .badNumber => 0x02
  | .badState => 0x03
  | .lineBusy => 0x04
  | .badParam => 0x05
  | .stopped => 0x06
  | .aborted => 0x07
  | .tbBusy => 0x08
  | .dropped => 0x09

/-- The byte of each register whose read changes nothing (Table 12-1, read column): every address but RECORD PORT, TRANSFER
PORT and STATUS, whose reads are the rows RECORD_PORT_READ, TRANSFER_PORT_READ and STATUS_READ and for which this
answers none. -/
def State.registerByte (s : State) (a : Addr) : Option Byte :=
  match a.toNat with
  | 0x00 => none
  | 0x01 => some (byteOfFin s.record.writeCursor)
  | 0x02 => some (byteOfFin s.record.readCursor)
  | 0x03 => some s.record.cursorState
  | 0x04 => none
  | 0x05 => some s.engine.params.pSlot
  | 0x06 => some s.engine.params.option
  | 0x07 => some s.engine.params.count
  | 0x08 => some s.engine.params.value0
  | 0x09 => some s.engine.params.value1
  | 0x0A => some s.engine.params.value2
  | 0x0B => some s.engine.params.value3
  | 0x0C => some s.engine.error.code
  | 0x0D => some s.engine.remain
  | 0x0E => none
  | 0x0F => some s.statusByte
  | 0x10 => some s.intEnable.byte
  | 0x11 => some (BitVec.ofNat 8 s.reports.watermark)
  | 0x12 => some (BitVec.ofNat 8 s.level)
  | 0x13 => some s.reports.lost
  | 0x14 => some s.lineLevelsLow
  | 0x15 => some s.lineLevelsHigh
  | 0x16 => some s.inputs
  | 0x17 => some Config.deviceId
  | _ => some 0x00

/-- What a read that changes nothing returns on D7–D0: the register's byte (R175), or nothing while RESET# is held, when
bus cycles are ignored and D7–D0 are not driven (R35, R182). The opcode table has no row for these reads
(notes/assumptions/8.md). -/
def State.quietRead (s : State) (a : Addr) : Option Byte := if s.resetHeld then none else s.registerByte a

end Sys2Proof.Machine
end

