-- ==== Sys2Proof/Machine/Window.lean ====
section
/-! DEFINITION. The host port (chapter 12): the STATUS read, INT ENABLE, WATERMARK, CONTROL, the soft reset of every
block, RESET#, and the write column of the register window (Table 12-1). -/

namespace Sys2Proof.Machine

/-- A step that is taken unless RESET# is held: while it is, bus cycles are ignored, nothing is sampled and no tick is
produced (R182). Every event of the device but the two of RESET# is such a step. -/
def State.unlessHeld (s : State) (f : State → State) : Host.Outcome State Fault Refusal :=
  .next (if s.resetHeld then s else f s)

/-- A read of STATUS after its value is taken: CMDP and REJ cleared, and STOPL where STOP# is released (R176). -/
def State.statusCleared (s : State) : State :=
  (s.withEngine { s.engine with cmdp := false, rej := false }).withStop
    { s.stop with stopl := s.stop.stopl && s.stopAsserted }

/-- A bus read that returns `b` on D7–D0 (R175). -/
def State.returning (s : State) (b : Byte) : State := s.withReadData (some b)

/-- The value that WATERMARK stores for a byte: 0 as 1, 33–255 as 32 (R179). -/
def watermarkOf (b : Byte) : Nat := if b = 0 then 1 else min b.toNat 32

/-- A write at WATERMARK (R179). -/
def State.setWatermark (s : State) (b : Byte) : State := s.withReports { s.reports with watermark := watermarkOf b }

/-- A write at INT ENABLE (R178). -/
def State.setIntEnable (s : State) (b : Byte) : State := s.withIntEnable (intEnableOf b)

/-- The scheduler at a soft reset (R71). -/
def State.softResetSlots (s : State) : State :=
  (s.withSlots (bankMap (fun _ x => x.softReset) s.slots)).withSched .empty

/-- A soft reset, taken by every block in one event (R144): the timebase unit, INT ENABLE and the stop monitor are kept
(R14, R177, R171). -/
def State.softReset (s : State) : State :=
  let s1 := s.softResetSlots
  let s2 := s1.withLines (bankMap (fun _ l => l.softReset) s1.lines)
  let s3 := s2.withTrigs (bankMap (fun _ c => c.softReset) s2.trigs)
  let s4 := s3.withReports s3.reports.cleared
  let s5 := s4.withRecord s4.record.softReset
  s5.withEngine s5.engine.softReset

/-- A write at CONTROL (R177). -/
def State.writeControl (s : State) (b : Byte) : State :=
  if b.getLsbD 1 then s.softReset else if b.getLsbD 0 then s.abortCommand else s

/-- RESET# goes low (R182): the device is held, D7–D0 are not driven, and the record port holds its reset values
(R35). -/
def State.holdReset (s : State) : State :=
  ((s.withResetHeld true).withReadData none).withRecord .powerOn

/-- RESET# is released, or power is applied (R182): every block at its power-on values; the commands still waiting are
not the device's. -/
def State.releaseReset (s : State) (pins : PinLevels) : State :=
  ((State.powerOn pins).withPending s.pending).withFreeIndex s.freeIndex

/-- A bus write, handed to the block that owns the register (R175, Table 12-1, write column). -/
def State.busWrite (s : State) (a : Addr) (b : Byte) : State :=
  match a.toNat with
  | 0x00 => s.recordWrite b
  | 0x01 => s.setWriteCursor b
  | 0x02 => s.setReadCursor b
  | 0x04 => s.transferWrite b
  | 0x05 => s.withParams { s.engine.params with pSlot := b }
  | 0x06 => s.withParams { s.engine.params with option := b }
  | 0x07 => s.withParams { s.engine.params with count := b }
  | 0x08 => s.withParams { s.engine.params with value0 := b }
  | 0x09 => s.withParams { s.engine.params with value1 := b }
  | 0x0A => s.withParams { s.engine.params with value2 := b }
  | 0x0B => s.withParams { s.engine.params with value3 := b }
  | 0x0E => s.writeCommand b
  | 0x0F => s.writeControl b
  | 0x10 => s.setIntEnable b
  | 0x11 => s.setWatermark b
  | _ => s

end Sys2Proof.Machine
end

