-- ==== Sys2Proof/Machine/BusCycles.lean ====
section
/-! DEFINITION. The meanings of the rows that are bus cycles of the host other than writes at COMMAND. A read's byte is
the value before the effects that follow it (R175). -/

namespace Sys2Proof.Machine

/-- RECORD_PORT_WRITE (R35, R37 to R39). -/
def execRecordPortWrite (data : Byte) (s : State) : Host.Outcome State Fault Refusal :=
  s.unlessHeld fun s => s.recordWrite data

/-- RECORD_PORT_READ (R35, R42, R43). -/
def execRecordPortRead (s : State) : Host.Outcome State Fault Refusal :=
  s.unlessHeld fun s => s.recordRead.returning s.recordByte

/-- WRITE_CURSOR (R36). -/
def execWriteCursor (data : Byte) (s : State) : Host.Outcome State Fault Refusal :=
  s.unlessHeld fun s => s.setWriteCursor data

/-- READ_CURSOR (R41). -/
def execReadCursor (data : Byte) (s : State) : Host.Outcome State Fault Refusal :=
  s.unlessHeld fun s => s.setReadCursor data

/-- TRANSFER_PORT_READ (R138, R141). -/
def execTransferPortRead (s : State) : Host.Outcome State Fault Refusal :=
  s.unlessHeld fun s => s.transferRead.returning s.transferByte

/-- TRANSFER_PORT_WRITE (R138, R139, R141). -/
def execTransferPortWrite (data : Byte) (s : State) : Host.Outcome State Fault Refusal :=
  s.unlessHeld fun s => s.transferWrite data

/-- STATUS_READ (R176). -/
def execStatusRead (s : State) : Host.Outcome State Fault Refusal :=
  s.unlessHeld fun s => s.statusCleared.returning s.statusByte

/-- ABORT (R142, R143, R177). -/
def execAbort (s : State) : Host.Outcome State Fault Refusal := s.unlessHeld State.abortCommand

/-- SOFT_RESET (R144, R177). -/
def execSoftReset (s : State) : Host.Outcome State Fault Refusal := s.unlessHeld State.softReset

/-- INT_ENABLE (R178). -/
def execIntEnable (data : Byte) (s : State) : Host.Outcome State Fault Refusal :=
  s.unlessHeld fun s => s.setIntEnable data

/-- WATERMARK (R179). -/
def execWatermark (data : Byte) (s : State) : Host.Outcome State Fault Refusal :=
  s.unlessHeld fun s => s.setWatermark data

/-- REGISTER_WRITE (R128, R175): a write at the address given, as Table 12-1 hands it to the owner of the register. -/
def execRegisterWrite (addr : Addr) (data : Byte) (s : State) : Host.Outcome State Fault Refusal :=
  s.unlessHeld fun s => s.busWrite addr data

end Sys2Proof.Machine
end

