-- ==== Sys2Proof/Machine/CommandWrites.lean ====
section
/-! DEFINITION. The meanings of the rows that are writes of a code at COMMAND: acceptance or refusal (R129, R130), and
for READ DUE LIST the snapshot. What the command then does is its completion event (R132), or its block events. -/

namespace Sys2Proof.Machine

/-- NOP written at COMMAND (R167). -/
def execNop (s : State) : Host.Outcome State Fault Refusal :=
  s.unlessHeld fun s => s.writeCommand Command.nop.code

/-- ARM written at COMMAND (R147). -/
def execArm (s : State) : Host.Outcome State Fault Refusal :=
  s.unlessHeld fun s => s.writeCommand Command.arm.code

/-- ARM ON TRIGGER written at COMMAND (R148). -/
def execArmOnTrigger (s : State) : Host.Outcome State Fault Refusal :=
  s.unlessHeld fun s => s.writeCommand Command.armOnTrigger.code

/-- CANCEL written at COMMAND (R149). -/
def execCancel (s : State) : Host.Outcome State Fault Refusal :=
  s.unlessHeld fun s => s.writeCommand Command.cancel.code

/-- RELEASE written at COMMAND (R150). -/
def execRelease (s : State) : Host.Outcome State Fault Refusal :=
  s.unlessHeld fun s => s.writeCommand Command.release.code

/-- ARM BATCH written at COMMAND (R151). -/
def execArmBatch (s : State) : Host.Outcome State Fault Refusal :=
  s.unlessHeld fun s => s.writeCommand Command.armBatch.code

/-- READ REPORTS written at COMMAND (R153). -/
def execReadReports (s : State) : Host.Outcome State Fault Refusal :=
  s.unlessHeld fun s => s.writeCommand Command.readReports.code

/-- CLEAR REPORTS written at COMMAND (R154). -/
def execClearReports (s : State) : Host.Outcome State Fault Refusal :=
  s.unlessHeld fun s => s.writeCommand Command.clearReports.code

/-- READ DUE LIST written at COMMAND (R155, R69). -/
def execReadDueList (s : State) : Host.Outcome State Fault Refusal :=
  s.unlessHeld fun s => s.writeCommand Command.readDueList.code

/-- SET TIMEBASE written at COMMAND (R156). -/
def execSetTimebase (s : State) : Host.Outcome State Fault Refusal :=
  s.unlessHeld fun s => s.writeCommand Command.setTimebase.code

/-- HOLD TIMEBASE written at COMMAND (R157). -/
def execHoldTimebase (s : State) : Host.Outcome State Fault Refusal :=
  s.unlessHeld fun s => s.writeCommand Command.holdTimebase.code

/-- RESUME TIMEBASE written at COMMAND (R157). -/
def execResumeTimebase (s : State) : Host.Outcome State Fault Refusal :=
  s.unlessHeld fun s => s.writeCommand Command.resumeTimebase.code

/-- READ TIME written at COMMAND (R158). -/
def execReadTime (s : State) : Host.Outcome State Fault Refusal :=
  s.unlessHeld fun s => s.writeCommand Command.readTime.code

/-- SET TICK written at COMMAND (R159). -/
def execSetTick (s : State) : Host.Outcome State Fault Refusal :=
  s.unlessHeld fun s => s.writeCommand Command.setTick.code

/-- CONFIGURE LINE written at COMMAND (R160). -/
def execConfigureLine (s : State) : Host.Outcome State Fault Refusal :=
  s.unlessHeld fun s => s.writeCommand Command.configureLine.code

/-- FORCE LINE written at COMMAND (R161). -/
def execForceLine (s : State) : Host.Outcome State Fault Refusal :=
  s.unlessHeld fun s => s.writeCommand Command.forceLine.code

/-- QUERY LINE written at COMMAND (R162). -/
def execQueryLine (s : State) : Host.Outcome State Fault Refusal :=
  s.unlessHeld fun s => s.writeCommand Command.queryLine.code

/-- CONFIGURE TRIGGER written at COMMAND (R163). -/
def execConfigureTrigger (s : State) : Host.Outcome State Fault Refusal :=
  s.unlessHeld fun s => s.writeCommand Command.configureTrigger.code

/-- FLUSH TRIGGER written at COMMAND (R164). -/
def execFlushTrigger (s : State) : Host.Outcome State Fault Refusal :=
  s.unlessHeld fun s => s.writeCommand Command.flushTrigger.code

/-- QUERY TRIGGER written at COMMAND (R165). -/
def execQueryTrigger (s : State) : Host.Outcome State Fault Refusal :=
  s.unlessHeld fun s => s.writeCommand Command.queryTrigger.code

/-- SET BLOCK written at COMMAND (R166). -/
def execSetBlock (s : State) : Host.Outcome State Fault Refusal :=
  s.unlessHeld fun s => s.writeCommand Command.setBlock.code

/-- A code that names no command written at COMMAND (R129). -/
def execBadCommand (code : Byte) (s : State) : Host.Outcome State Fault Refusal :=
  s.unlessHeld fun s => s.writeCommand code

end Sys2Proof.Machine
end

