-- ==== Sys2Proof/Machine/EngineEvents.lean ====
section
/-! DEFINITION. The meanings of the rows that are events of the command engine (R132): the completion and the block
events of the command in progress. -/

namespace Sys2Proof.Machine

/-- COMPLETION (R132, R146). -/
def execCompletion (s : State) : Host.Outcome State Fault Refusal := s.unlessHeld State.completionEvent

/-- BLOCK_PREPARATION (R137). -/
def execBlockPreparation (s : State) : Host.Outcome State Fault Refusal := s.unlessHeld State.preparationEvent

/-- BLOCK_OPENING (R139). -/
def execBlockOpening (s : State) : Host.Outcome State Fault Refusal := s.unlessHeld State.openingEvent

/-- BLOCK_PROCESSING (R140). -/
def execBlockProcessing (s : State) : Host.Outcome State Fault Refusal := s.unlessHeld State.processingEvent

end Sys2Proof.Machine
end

