-- ==== Sys2Proof/Machine/MachineEvents.lean ====
section
/-! DEFINITION. The meanings of the rows that are events of the machine side: base ticks, advances, edges, STOP# and
RESET#. -/

namespace Sys2Proof.Machine

/-- BASE_TICK (R2, R86, R104): the line unit and the trigger unit take the base tick, and the base tick count starts
again (R1). -/
def execBaseTick (s : State) : Host.Outcome State Fault Refusal :=
  s.unlessHeld fun s => s.restartTick.lineTick.trigTick

/-- ADVANCE (R4, R5, R61): the base tick reaches TB0, or a rising edge of CNT reaches TB1. A TB0 fire marks the pulses it
loads as fresh where the line unit has not yet taken the base tick (R87). -/
def execAdvance (source : AdvanceOf) (s : State) : Host.Outcome State Fault Refusal :=
  match source with
  | .tb0 lineUnitTook => s.unlessHeld fun s => s.advance .tb0 (!lineUnitTook)
  | .tb1 => s.unlessHeld State.cntRise

/-- PULSE_END (R86): the line unit takes a base tick in an event of its own; a countdown that reaches 0 ends its
pulse. -/
def execPulseEnd (s : State) : Host.Outcome State Fault Refusal := s.unlessHeld State.lineTick

/-- LOCKOUT_WINDOW_CLOSE (R104): the trigger unit takes a base tick in an event of its own. -/
def execLockoutWindowClose (s : State) : Host.Outcome State Fault Refusal := s.unlessHeld State.trigTick

/-- TRIGGER_EDGE (R101 to R108). -/
def execTriggerEdge (t : TrigNo) (level : Level) (s : State) : Host.Outcome State Fault Refusal :=
  s.unlessHeld fun s => s.trigSample t level

/-- CNT_EDGE (R5). -/
def execCntEdge (level : Level) (s : State) : Host.Outcome State Fault Refusal :=
  s.unlessHeld fun s => s.cntSample level

/-- STOP_SAMPLE (R168). -/
def execStopSample (level : Level) (s : State) : Host.Outcome State Fault Refusal :=
  s.unlessHeld fun s => s.stopSampled level

/-- STOP_ASSERTION (R169 to R171). -/
def execStopAssertion (s : State) : Host.Outcome State Fault Refusal := s.unlessHeld State.assertStop

/-- STOP_RELEASE (R173). -/
def execStopRelease (s : State) : Host.Outcome State Fault Refusal := s.unlessHeld State.releaseStop

/-- RESET_ASSERTION (R182). -/
def execResetAssertion (s : State) : Host.Outcome State Fault Refusal := .next s.holdReset

/-- RESET_RELEASE, which is also the application of power (R182). -/
def execResetRelease (pins : PinLevels) (s : State) : Host.Outcome State Fault Refusal := .next (s.releaseReset pins)

end Sys2Proof.Machine
end

