-- ==== Sys2Proof/Machine/Dispatch.lean ====
section
/-! DEFINITION. The dispatch of a command to its meaning: one arm for each row of spec/opcode_table.json. -/

namespace Sys2Proof.Machine

def exec (i : Instr) (s : State) : Host.Outcome State Fault Refusal :=
  match i with
  | .baseTick => Sys2Proof.Machine.execBaseTick s
  | .advance source => Sys2Proof.Machine.execAdvance source s
  | .pulseEnd => Sys2Proof.Machine.execPulseEnd s
  | .lockoutWindowClose => Sys2Proof.Machine.execLockoutWindowClose s
  | .triggerEdge t level => Sys2Proof.Machine.execTriggerEdge t level s
  | .stopAssertion => Sys2Proof.Machine.execStopAssertion s
  | .stopRelease => Sys2Proof.Machine.execStopRelease s
  | .resetAssertion => Sys2Proof.Machine.execResetAssertion s
  | .resetRelease pins => Sys2Proof.Machine.execResetRelease pins s
  | .recordPortWrite data => Sys2Proof.Machine.execRecordPortWrite data s
  | .recordPortRead => Sys2Proof.Machine.execRecordPortRead s
  | .writeCursor data => Sys2Proof.Machine.execWriteCursor data s
  | .readCursor data => Sys2Proof.Machine.execReadCursor data s
  | .transferPortRead => Sys2Proof.Machine.execTransferPortRead s
  | .transferPortWrite data => Sys2Proof.Machine.execTransferPortWrite data s
  | .statusRead => Sys2Proof.Machine.execStatusRead s
  | .abort => Sys2Proof.Machine.execAbort s
  | .softReset => Sys2Proof.Machine.execSoftReset s
  | .intEnable data => Sys2Proof.Machine.execIntEnable data s
  | .watermark data => Sys2Proof.Machine.execWatermark data s
  | .registerWrite addr data => Sys2Proof.Machine.execRegisterWrite addr data s
  | .nop => Sys2Proof.Machine.execNop s
  | .arm => Sys2Proof.Machine.execArm s
  | .armOnTrigger => Sys2Proof.Machine.execArmOnTrigger s
  | .cancel => Sys2Proof.Machine.execCancel s
  | .release => Sys2Proof.Machine.execRelease s
  | .armBatch => Sys2Proof.Machine.execArmBatch s
  | .readReports => Sys2Proof.Machine.execReadReports s
  | .clearReports => Sys2Proof.Machine.execClearReports s
  | .readDueList => Sys2Proof.Machine.execReadDueList s
  | .setTimebase => Sys2Proof.Machine.execSetTimebase s
  | .holdTimebase => Sys2Proof.Machine.execHoldTimebase s
  | .resumeTimebase => Sys2Proof.Machine.execResumeTimebase s
  | .readTime => Sys2Proof.Machine.execReadTime s
  | .setTick => Sys2Proof.Machine.execSetTick s
  | .configureLine => Sys2Proof.Machine.execConfigureLine s
  | .forceLine => Sys2Proof.Machine.execForceLine s
  | .queryLine => Sys2Proof.Machine.execQueryLine s
  | .configureTrigger => Sys2Proof.Machine.execConfigureTrigger s
  | .flushTrigger => Sys2Proof.Machine.execFlushTrigger s
  | .queryTrigger => Sys2Proof.Machine.execQueryTrigger s
  | .setBlock => Sys2Proof.Machine.execSetBlock s
  | .badCommand code => Sys2Proof.Machine.execBadCommand code s
  | .completion => Sys2Proof.Machine.execCompletion s
  | .blockPreparation => Sys2Proof.Machine.execBlockPreparation s
  | .blockOpening => Sys2Proof.Machine.execBlockOpening s
  | .blockProcessing => Sys2Proof.Machine.execBlockProcessing s
  | .cntEdge level => Sys2Proof.Machine.execCntEdge level s
  | .stopSample level => Sys2Proof.Machine.execStopSample level s

end Sys2Proof.Machine
end

