-- ==== Sys2Proof/Safety.lean ====
section
/-! DEFINITION. What a safe run keeps, in the manual's own laws: the report queue (R120, R179), the record port
(Table 3-1), the handshake of the command engine (R131, R136, R123), the slot records (Table 2-6), the six lists
(R49 to R51), line ownership and the pulse law (R87, R89), and the stop law (R172). -/

namespace Sys2Proof.Machine

/-! ## Report queue and record port -/

/-- The queue holds at most 32 entries and the watermark is 1–32 (R120, R179). -/
abbrev QueueWf (q : ReportQueue) : Prop := q.entries.length ≤ 32 ∧ 1 ≤ q.watermark ∧ q.watermark ≤ 32

/-- The record port is within Table 3-1: at most 15 staged bytes, a read position of 0–23, and a read image of 24
bytes; read staging that is empty stands at position 0. -/
abbrev RecordWf (p : RecordPort) : Prop :=
  p.writeStaging.length ≤ 15 ∧ p.readPos ≤ 23 ∧
    match p.readStaging with
    | some img => img.length = 24
    | none => p.readPos = 0

/-! ## Command engine -/

/-- The engine between blocks and commands: what each phase of Table 9-3 says of the command in progress, the empty
buffers of IDLE (R132), the error latch (R132) and REMAIN (R136). -/
abbrev PhaseWf (e : Engine) : Prop :=
  (e.phase = .idle ↔ e.current = none) ∧
  (e.phase = .idle → e.buffer = .empty ∧ e.blockLength = 0 ∧ e.bytePos = 0 ∧ e.snapshot = [] ∧ e.delivered = 0) ∧
  (e.phase ≠ .idle → e.error = .none) ∧
  (e.err = true ↔ e.error ≠ .none) ∧
  (e.phase ≠ .idle → e.remain.toNat ≤ e.latched.count.toNat) ∧
  (1 ≤ e.blockSize ∧ e.blockSize ≤ 8) ∧
  (e.phase = .transfer → counted e.command = true ∧ transferCheck e.command e.latched = .none)

/-- The open block of READ REPORTS: its entries that are still unread are the head of the queue, in order (R123), and
there are no more of them than REMAIN. -/
abbrev ReportBlockWf (s : State) : Prop :=
  s.engine.phase = .transfer → s.engine.command = some .readReports →
    match s.engine.buffer with
    | .reports es =>
      es.length = s.engine.blockLength ∧ s.engine.bytePos < 16 * s.engine.blockLength ∧
        es.drop (s.engine.bytePos / 16) <+: s.reports.entries ∧
        s.engine.blockLength ≤ s.engine.remain.toNat + s.engine.bytePos / 16
    | _ => False

/-- The open block of READ DUE LIST: its entries that are still unread are the next undelivered entries of the
snapshot, and there are no more of them than REMAIN. -/
abbrev DueBlockWf (s : State) : Prop :=
  s.engine.phase = .transfer → s.engine.command = some .readDueList →
    match s.engine.buffer with
    | .dues es =>
      es.length = s.engine.blockLength ∧ s.engine.bytePos < 8 * s.engine.blockLength ∧
        es.drop (s.engine.bytePos / 8) <+: s.engine.snapshot.drop s.engine.delivered ∧
        s.engine.blockLength ≤ s.engine.remain.toNat + s.engine.bytePos / 8
    | _ => False

/-- ARM BATCH: an open block holds the bytes written so far, fewer than its length; a block whose last byte is written
holds all of them until it is processed; no block is longer than REMAIN, which is COUNT before the first (R139). -/
abbrev BatchBlockWf (e : Engine) : Prop :=
  e.command = some .armBatch →
    (e.phase = .transfer → e.buffer.bytes.length = e.bytePos ∧ e.bytePos < e.blockLength ∧
      e.blockLength ≤ e.remain.toNat) ∧
    (e.phase = .engine → e.bytePos = 0 ∧ (e.blockLength = 0 → e.remain = e.latched.count) ∧ (e.blockLength ≠ 0 → e.buffer.bytes.length = e.blockLength ∧
      e.blockLength ≤ e.remain.toNat))

/-- The handshake of the transfer port. -/
abbrev HandshakeWf (s : State) : Prop :=
  PhaseWf s.engine ∧ ReportBlockWf s ∧ DueBlockWf s ∧ BatchBlockWf s.engine

/-! ## Slots and lists -/

/-- The repeat countdown of an ARMED or WAITING slot: at least 1, or unlimited and 0 (Table 2-5, R64). -/
abbrev CountWf (x : Slot) : Prop :=
  (x.run.unlimited = true → x.run.remaining = 0 ∧ x.config.period ≠ 0) ∧
  (x.run.unlimited = false → x.run.remaining ≠ 0)

/-- A slot record is one that Tables 2-5 and 2-6 and the format checks of R38 allow. -/
abbrev SlotWf (x : Slot) : Prop :=
  x.config.period.toNat < 2 ^ 31 ∧ (x.config.action = .pulse → x.config.width ≠ 0) ∧
  match x.run.state with
  | .free => x = .free
  | .held => x.run = .held
  | .waiting => x.run.bound.isSome = true ∧ x.run.due = 0 ∧ x.config.offset.toNat < 2 ^ 31 ∧ CountWf x
  | .armed => x.run.bound = none ∧ CountWf x

/-- The membership law (R49): a slot stands in the list its state names, once, and in no other. -/
def ListsWf (s : State) : Prop :=
  (∀ r, (s.list r).Nodup) ∧ ∀ x r, x ∈ s.list r ↔ (s.slot x).standsIn = some r

/-- The order law (R50, R51): each due list is in non-decreasing remaining distance, every distance from 1 to 2^31. -/
def OrderWf (s : State) : Prop :=
  ∀ tb, (s.list (.due tb)).Pairwise (fun x y => s.distanceOn tb x ≤ s.distanceOn tb y) ∧
    ∀ x ∈ s.list (.due tb), 1 ≤ s.distanceOn tb x ∧ s.distanceOn tb x ≤ 2 ^ 31

/-! ## Lines and the stop -/

/-- The slot holds or waits to hold a line: ARMED or WAITING with an action (R89). -/
abbrev HoldsLine (x : Slot) : Prop :=
  (x.run.state = .armed ∨ x.run.state = .waiting) ∧ x.config.action ≠ .none

/-- The single-owner law (R89): every ARMED or WAITING slot with an action owns its line; an owner that does not hold the
line is a tail owner, with a pulse pending; a forced line has no owner. -/
def OwnerWf (s : State) : Prop :=
  (∀ x, HoldsLine (s.slot x) → (s.line (s.slot x).config.line).owner = some x) ∧
  (∀ l, (s.line l).owner ≠ none → s.ownerHolds l = true ∨ (s.line l).countdown ≠ 0) ∧
  (∀ l, (s.line l).forced = true → (s.line l).owner = none)

/-- The pulse law (R87): a line with a nonzero countdown is ACTIVE and has an owner. -/
def PulseWf (s : State) : Prop :=
  ∀ l, (s.line l).countdown ≠ 0 → (s.line l).logical = .active ∧ (s.line l).owner ≠ none

/-- The stop law (R172): while STOP# is asserted no slot is ARMED or WAITING, no line has an owner, a pulse or the forced
flag, every line is at its safe level, and STOPL is set. -/
def StopWf (s : State) : Prop :=
  s.stopAsserted = true →
    s.stop.stopl = true ∧
    (∀ x, (s.slot x).run.state ≠ .armed ∧ (s.slot x).run.state ≠ .waiting) ∧
    ∀ l, (s.line l).owner = none ∧ (s.line l).countdown = 0 ∧ (s.line l).forced = false ∧
      (s.line l).level = (s.line l).safe

/-- The laws of the scheduler and the line unit together: each event keeps them all. -/
def ScheduleWf (s : State) : Prop :=
  (∀ x, SlotWf (s.slot x)) ∧ ListsWf s ∧ OrderWf s ∧ OwnerWf s ∧ PulseWf s ∧ StopWf s

/-- A safe state: every law holds. -/
def Safe (s : State) : Prop := QueueWf s.reports ∧ RecordWf s.record ∧ HandshakeWf s ∧ ScheduleWf s

end Sys2Proof.Machine
end

