-- ==== Sys2Proof/Certificates/Slice0/Obligations.lean ====
section
/-! DEFINITION. The statements for the provers, one `Obligations.<Name>` each, and the terms they are written in. -/

namespace Sys2Proof.Claims

open Sys2Proof.Machine

/-! ## Terms of the statements -/

/-- The command engine can accept a command: RESET# is not held and BUSY and XFER are clear (R129). -/
abbrev Ready (s : State) : Prop := s.resetHeld = false ∧ s.engine.phase = .idle

/-- The line `l` has a holding owner: its owner is ARMED or WAITING, has an action, and names the line (R89). -/
def HoldingOwner (s : State) (l : LineNo) : Prop :=
  ∃ o, (s.line l).owner = some o ∧ ((s.slot o).run.state = .armed ∨ (s.slot o).run.state = .waiting) ∧
    (s.slot o).config.action ≠ .none ∧ (s.slot o).config.line = l

/-- Slot `x` may arm as far as its line goes: its action is NONE, or its line has no holding owner other than `x`
(R54, R91). -/
def LineGranted (s : State) (x : SlotNo) : Prop :=
  (s.slot x).config.action = .none ∨ (s.line (s.slot x).config.line).owner = some x ∨
    ¬ HoldingOwner s (s.slot x).config.line

/-- A TB0 PULSE slot whose nonzero period is less than its width (R19). -/
def OverlapsItself (c : SlotConfig) : Prop :=
  c.timebase = .tb0 ∧ c.action = .pulse ∧ c.period ≠ 0 ∧ c.period.toNat < c.width.toNat

/-- The run part of the HELD row of Table 2-6. -/
def heldRun : RunPart where
  state := .held
  bound := none
  due := 0
  remaining := 0
  unlimited := false

/-- A FREE slot: an all-zero configuration and the run part of the FREE row (R26). -/
def freeSlot : Slot where
  config :=
    { tag := 0, timebase := .tb0, action := .none, latePolicy := .fire, reportEnable := false, chainEnable := false,
      line := 0, successor := 0, offset := 0, period := 0, repeats := 0, width := 0 }
  run := { state := .free, bound := none, due := 0, remaining := 0, unlimited := false }

/-- Remaining fires of a slot that leaves HELD (Table 2-4). -/
def startRemaining (c : SlotConfig) : Half := if c.period = 0 then 1 else c.repeats

/-- The unlimited flag of a slot that leaves HELD (Table 2-4). -/
def startUnlimited (c : SlotConfig) : Bool := decide (c.period ≠ 0 ∧ c.repeats = 0)

/-- The run part on entry to ARMED from HELD (Table 2-6). -/
def armedRun (c : SlotConfig) (due : Word) : RunPart where
  state := .armed
  bound := none
  due := due
  remaining := startRemaining c
  unlimited := startUnlimited c

/-- `new` is `old` with `x` placed after every entry whose distance is at most its own that stands before the first entry
whose distance is greater, and before that entry (R50). -/
def InsertedByDistance (dist : SlotNo → Nat) (x : SlotNo) (old new : List SlotNo) : Prop :=
  ∃ before after, old = before ++ after ∧ new = before ++ x :: after ∧ (∀ y ∈ before, dist y ≤ dist x) ∧
    ∀ y ∈ after.head?, dist x < dist y

/-- A line owned by `x` with no pulse pending is released by it; any other line is left as it was (R90). -/
def releasedBy (x : SlotNo) (l : Line) : Line := if l.owner = some x ∧ l.countdown = 0 then { l with owner := none } else l

/-- A line after an action of a fire with the given width; `fresh` is the fresh-load marker that a PULSE leaves
(R84, R85, R87). -/
def acted (a : Action) (width : Half) (fresh : Bool) (l : Line) : Line :=
  match a with
  | .none => l
  | .set => { l with logical := .active, countdown := 0 }
  | .clear => { l with logical := .inactive, countdown := 0 }
  | .toggle => { l with logical := if l.logical = .active then .inactive else .active, countdown := 0 }
  | .pulse => { l with logical := .active, countdown := width, fresh := fresh }

/-- A line after a claim granted to `x` (R91). -/
def claimed (x : SlotNo) (l : Line) : Line := { l with owner := some x, forced := false }

/-- Only the line of slot `x` has changed from `s` to `t`, to `l'`; a slot whose action is NONE changes no line. -/
def OnlyItsLine (s t : State) (x : SlotNo) (l' : Line → Line) : Prop :=
  ∀ m, t.line m =
    if (s.slot x).config.action ≠ .none ∧ m = (s.slot x).config.line then l' (s.line m) else s.line m

/-- Only the run part of slot `x` has changed from `s` to `t`, to `r`. -/
def OnlyItsRun (s t : State) (x : SlotNo) (r : RunPart) : Prop :=
  ∀ y, t.slot y = if y = x then { s.slot x with run := r } else s.slot y

/-- A report with the given kind of an event that concerns slot `x`: the flags other than the timebase are clear and aux is
FFh (Table 8-3). -/
def reportOf (s : State) (x : SlotNo) (kind : ReportKind) (value at_ : Word) : Report where
  kind := kind
  flags :=
    { timebase := (s.slot x).config.timebase, overlap := false, final := false, noSlot := false, unlimited := false,
      cause := .none }
  slot := some x
  tag := (s.slot x).config.tag
  value := value
  at_ := at_
  remaining := 0
  lost := 0
  aux := .none

/-- The queue after `r` is handed to it where `enabled` holds (R16, R116, R117). -/
def handed (enabled : Bool) (r : Report) (q : ReportQueue) : ReportQueue := if enabled then q.append r else q

/-- The timebase that an ADVANCE advances. -/
def timebaseOf : AdvanceOf → Timebase
  | .tb0 _ => .tb0
  | .tb1 => .tb1

/-- The fresh-load marker that a PULSE of a fire at the advance leaves: set where the line unit has not yet taken the base
tick that made it (R87). -/
def freshOf : AdvanceOf → Bool
  | .tb0 lineUnitTook => !lineUnitTook
  | .tb1 => false

/-- The timebase unit after an advance is counted: the counter risen by one; a TB1 advance also leaves the CNT level high
(R4, R5). -/
def counted (u : TimebaseUnit) : AdvanceOf → TimebaseUnit
  | .tb0 _ => { u with tb0 := { u.tb0 with count := u.tb0.count + 1 } }
  | .tb1 => { u with tb1 := { u.tb1 with count := u.tb1.count + 1 }, cntLevel := .high }

/-- The entries that the advance `a` reaches: those of its due list whose due point is the risen counter (R61). -/
def reachedAt (s : State) (a : AdvanceOf) : List SlotNo :=
  (s.list (.due (timebaseOf a))).filter fun x => decide ((s.slot x).run.due = s.now (timebaseOf a) + 1)

/-- The advance `a` is taken in `s` with its timebase RUNNING, and `x` is the one entry it reaches. -/
def FiresAt (s : State) (a : AdvanceOf) (x : SlotNo) : Prop :=
  s.resetHeld = false ∧ (s.counterOf (timebaseOf a)).run = .running ∧ reachedAt s a = [x] ∧
    (s.slot x).config.timebase = timebaseOf a

/-- A fire of the slot is its last (R64). -/
abbrev LastFire (x : Slot) : Prop := x.config.period = 0 ∨ (x.run.unlimited = false ∧ x.run.remaining = 1)

/-- From `s` to `t` nothing has changed but slots, lists, lines and reports (each of which a statement then gives), and the
timebase unit is `u`. -/
def OnlyScheduling (s t : State) (u : TimebaseUnit) : Prop :=
  t = ((((s.withTimebase u).withSlots t.slots).withSched t.sched).withLines t.lines).withReports t.reports

/-- A line as the line unit takes a base tick (R86, R87). -/
def TickedLine (s : State) (l : LineNo) (l' : Line) : Prop :=
  ((s.line l).fresh = true → l' = { s.line l with fresh := false }) ∧
  ((s.line l).fresh = false → (s.line l).countdown = 0 → l' = s.line l) ∧
  ((s.line l).fresh = false → 2 ≤ (s.line l).countdown.toNat →
    l' = { s.line l with countdown := (s.line l).countdown - 1 }) ∧
  ((s.line l).fresh = false → (s.line l).countdown = 1 → HoldingOwner s l →
    l' = { s.line l with countdown := 0, logical := .inactive }) ∧
  ((s.line l).fresh = false → (s.line l).countdown = 1 → ¬ HoldingOwner s l →
    l' = { s.line l with countdown := 0, logical := .inactive, owner := none })

/-- A trigger channel as the trigger unit takes a base tick (R104). -/
def tickedChannel (c : Channel) : Channel := { c with lockLeft := if c.lockLeft = 0 then 0 else c.lockLeft - 1 }

/-- The channel's edge select qualifies the edge to level `v` (R102). -/
def Qualified (c : Channel) (v : Level) : Prop :=
  (c.select = .rising ∧ v = .high) ∨ (c.select = .falling ∧ v = .low) ∨ c.select = .both

/-- A sample finds TRG`n` at `v` and the edge is accepted: a qualified change outside a lockout window (R101 to R103). -/
def EdgeAccepted (s : State) (n : TrigNo) (v : Level) : Prop :=
  s.resetHeld = false ∧ (s.trig n).pin ≠ v ∧ Qualified (s.trig n) v ∧ (s.trig n).lockLeft = 0

/-- The channel after an accepted edge to level `v`: its pin level follows and its window is loaded (R101, R103). -/
def acceptedChannel (c : Channel) (v : Level) : Channel := { c with pin := v, lockLeft := c.lockLength }

/-- The BOUND report of slot `x` at an edge on TRG`n` (R106). -/
def boundReport (s : State) (x : SlotNo) (n : TrigNo) : Report :=
  let now := s.now (s.slot x).config.timebase
  { reportOf s x .bound now now with
    flags := { (reportOf s x .bound now now).flags with unlimited := (s.slot x).run.unlimited }
    remaining := (s.slot x).run.remaining
    aux := .trigger n }

/-- The report of a last fire of slot `x` at counter `now`, whose line is `l` as the fire finds it (R63). -/
def lastFireReport (s : State) (x : SlotNo) (kind : ReportKind) (due now : Word) (unlimited : Bool) (l : Line) : Report :=
  { reportOf s x kind due now with
    flags :=
      { (reportOf s x kind due now).flags with
        overlap := decide ((s.slot x).config.action = .pulse ∧ l.countdown ≠ 0)
        final := true
        unlimited := unlimited } }

/-- The report of the disarm of slot `x` (R66). -/
def disarmReport (s : State) (x : SlotNo) (kind : ReportKind) (aux : Aux) : Report :=
  let value := if (s.slot x).run.state = .armed then (s.slot x).run.due else 0
  let now := s.now (s.slot x).config.timebase
  { reportOf s x kind value now with
    flags :=
      { (reportOf s x kind value now).flags with final := true, unlimited := (s.slot x).run.unlimited }
    aux := aux }

/-- The reports that the disarm of the slots of `xs`, in order, hands to the queue (R16, R66). -/
def disarmReports (s : State) (xs : List SlotNo) (kind : ReportKind) (aux : Aux) : List Report :=
  (xs.filter fun x => (s.slot x).config.reportEnable).map fun x => disarmReport s x kind aux

/-- The logical state of a line at its safe level under its polarity (R83). -/
def safeState : Polarity → Level → Logical
  | .activeHigh, .high => .active
  | .activeHigh, .low => .inactive
  | .activeLow, .high => .inactive
  | .activeLow, .low => .active

/-- A line given up at a STOP# assertion or a soft reset (R99, R100, R170). -/
def atSafeLevel (l : Line) : Line :=
  { l with owner := none, countdown := 0, forced := false, logical := safeState l.polarity l.safe }

/-- A completed write image fails a format check of Table 3-3 (R38). -/
def BadFormat (img : List Byte) : Prop :=
  5 ≤ ((img.getD 1 0).extractLsb' 1 3).toNat ∨ 16 ≤ (img.getD 2 0).toNat ∨ 128 ≤ (img.getD 3 0).toNat ∨
    128 ≤ (img.getD 11 0).toNat ∨
    (((img.getD 1 0).extractLsb' 1 3).toNat = 3 ∧ img.getD 14 0 = 0 ∧ img.getD 15 0 = 0)

/-- Two bytes of an image from byte `i`, least significant first (0.4.1). -/
def le16 (img : List Byte) (i : Nat) : Nat := (img.getD i 0).toNat + 2 ^ 8 * (img.getD (i + 1) 0).toNat

/-- Four bytes of an image from byte `i`, least significant first (0.4.1). -/
def le32 (img : List Byte) (i : Nat) : Nat := le16 img i + 2 ^ 16 * le16 img (i + 2)

/-- The code of an action (Table 12-5). -/
def actionCode : Action → Nat
  | .none => 0
  | .set => 1
  | .clear => 2
  | .pulse => 3
  | .toggle => 4

/-- Bytes 0 to 15 of an image hold the fields of the configuration `c`, whatever bit 7 of the mode byte is (Tables 12-4 and
12-5). -/
def ConfigFields (img : List Byte) (c : SlotConfig) : Prop :=
  img.getD 0 0 = c.tag ∧
  (img.getD 1 0).getLsbD 0 = decide (c.timebase = .tb1) ∧
  ((img.getD 1 0).extractLsb' 1 3).toNat = actionCode c.action ∧
  (img.getD 1 0).getLsbD 4 = decide (c.latePolicy = .drop) ∧
  (img.getD 1 0).getLsbD 5 = c.reportEnable ∧ (img.getD 1 0).getLsbD 6 = c.chainEnable ∧
  (img.getD 2 0).toNat = c.line.val ∧ (img.getD 3 0).toNat = c.successor.val ∧
  le32 img 4 = c.offset.toNat ∧ le32 img 8 = c.period.toNat ∧
  le16 img 12 = c.repeats.toNat ∧ le16 img 14 = c.width.toNat

/-- A write image spells the configuration `c`, the unassigned bit 7 of the mode byte either way (R38, R181). -/
def Spells (img : List Byte) (c : SlotConfig) : Prop := img.length = 16 ∧ ConfigFields img c

/-- The code of a slot state (Table 12-6). -/
def stateCode : SlotState → Nat
  | .free => 0
  | .held => 1
  | .waiting => 2
  | .armed => 3

/-- Bytes 16 to 23 of an image hold the fields of the run part `r` (Table 12-6). -/
def RunFields (img : List Byte) (r : RunPart) : Prop :=
  ((img.getD 16 0).extractLsb' 0 2).toNat = stateCode r.state ∧ (img.getD 16 0).extractLsb' 2 5 = 0 ∧
  (img.getD 16 0).getLsbD 7 = r.unlimited ∧
  (r.bound = none → img.getD 17 0 = 0xFF) ∧ (∀ n, r.bound = some n → (img.getD 17 0).toNat = n.val) ∧
  le16 img 18 = r.remaining.toNat ∧ le32 img 20 = r.due.toNat

/-- The 24-byte read image of a slot (R32). -/
def ReadImageOf (img : List Byte) (x : Slot) : Prop :=
  img.length = 24 ∧ ConfigFields img x.config ∧ (img.getD 1 0).getLsbD 7 = false ∧ RunFields img x.run

/-- The code of a report kind (Table 12-7). -/
def kindCode : ReportKind → Nat
  | .fired => 1
  | .late => 2
  | .dropped => 3
  | .cancelled => 4
  | .stopped => 5
  | .chainFault => 6
  | .unclaimed => 7
  | .bound => 8

/-- The code of a chain cause (Table 12-8). -/
def causeCode : ChainCause → Nat
  | .none => 0
  | .notHeld => 1
  | .lineBusy => 2
  | .badOffset => 3

/-- The sixteen bytes of a report entry (Tables 12-7 and 12-8). -/
def ReportImageOf (img : List Byte) (r : Report) : Prop :=
  img.length = 16 ∧ (img.getD 0 0).toNat = kindCode r.kind ∧
  (img.getD 1 0).getLsbD 0 = decide (r.flags.timebase = .tb1) ∧ (img.getD 1 0).getLsbD 1 = r.flags.overlap ∧
  (img.getD 1 0).getLsbD 2 = r.flags.final ∧ (img.getD 1 0).getLsbD 3 = r.flags.noSlot ∧
  (img.getD 1 0).getLsbD 4 = r.flags.unlimited ∧
  ((img.getD 1 0).extractLsb' 5 2).toNat = causeCode r.flags.cause ∧ (img.getD 1 0).getLsbD 7 = false ∧
  (r.slot = none → img.getD 2 0 = 0xFF) ∧ (∀ x, r.slot = some x → (img.getD 2 0).toNat = x.val) ∧
  img.getD 3 0 = r.tag ∧ le32 img 4 = r.value.toNat ∧ le32 img 8 = r.at_.toNat ∧
  le16 img 12 = r.remaining.toNat ∧ img.getD 14 0 = r.lost ∧
  (r.aux = .none → img.getD 15 0 = 0xFF) ∧ (∀ x, r.aux = .successor x → (img.getD 15 0).toNat = x.val) ∧
  ∀ n, r.aux = .trigger n → (img.getD 15 0).toNat = n.val

/-- The eight bytes of a due-list transfer entry (Table 12-9). -/
def DueImageOf (img : List Byte) (e : DueEntry) : Prop :=
  img.length = 8 ∧ (img.getD 0 0).toNat = e.slot.val ∧
  (img.getD 1 0).getLsbD 0 = decide (e.timebase = .tb1) ∧ (img.getD 1 0).getLsbD 1 = e.periodic ∧
  (img.getD 1 0).getLsbD 2 = e.unlimited ∧ (img.getD 1 0).extractLsb' 3 5 = 0 ∧
  le32 img 2 = e.due.toNat ∧ le16 img 6 = e.remaining.toNat

/-- A configuration that a commit can store: its period is below 2^31 and a PULSE has a width (R19, R21). -/
def FormatOk (c : SlotConfig) : Prop := c.period.toNat < 2 ^ 31 ∧ (c.action = .pulse → c.width ≠ 0)

/-- The record port after a completed write image (R39). -/
def afterImage (p : RecordPort) (result : CommitResult) : RecordPort :=
  { p with writeCursor := p.writeCursor + 1, writeStaging := [], last := .write, result := result }

/-- The mode that bit 0 of OPTION selects: set for RELATIVE, clear for ABSOLUTE (Table 12-10). -/
def relativeMode (option : Byte) : Bool := option.getLsbD 0

/-- The due point of an arm attempt by ARM or ARM BATCH (R55). -/
def dueFor (s : State) (option : Byte) (x : SlotNo) : Word :=
  if relativeMode option then s.now (s.slot x).config.timebase + (s.slot x).config.offset else (s.slot x).config.offset

/-- The third check of the arm attempt by ARM or ARM BATCH passes (Table 4-2). -/
def OffsetOk (option : Byte) (c : SlotConfig) : Prop :=
  (relativeMode option = true → c.offset.toNat < 2 ^ 31) ∧ ¬ OverlapsItself c

/-- Slot `x` passes the four checks of an arm attempt by ARM or ARM BATCH (Table 4-2). -/
def ArmPasses (s : State) (option : Byte) (x : SlotNo) : Prop :=
  s.stop.level = .high ∧ (s.slot x).run.state = .held ∧ OffsetOk option (s.slot x).config ∧ LineGranted s x

/-- The error code of the first check of Table 4-2 that fails for slot `x`, the third check being `offsetOk`. -/
def ArmFails (s : State) (x : SlotNo) (offsetOk : Prop) (err : ErrorCode) : Prop :=
  (s.stop.level = .low ∧ err = .stopped) ∨
  (s.stop.level = .high ∧ (s.slot x).run.state ≠ .held ∧ err = .badState) ∨
  (s.stop.level = .high ∧ (s.slot x).run.state = .held ∧ ¬ offsetOk ∧ err = .badParam) ∨
  (s.stop.level = .high ∧ (s.slot x).run.state = .held ∧ offsetOk ∧ ¬ LineGranted s x ∧ err = .lineBusy)

/-- Slot `x` is armed from HELD and inserted: its run part, its due list, its line, and no other slot, list, line or
report (R54, R55). -/
def ArmedInto (s t : State) (x : SlotNo) (due : Word) : Prop :=
  OnlyItsRun s t x (armedRun (s.slot x).config due) ∧
  InsertedByDistance (t.distanceOn (s.slot x).config.timebase) x (s.list (.due (s.slot x).config.timebase))
    (t.list (.due (s.slot x).config.timebase)) ∧
  (∀ r, r ≠ .due (s.slot x).config.timebase → t.list r = s.list r) ∧
  OnlyItsLine s t x (claimed x) ∧ t.reports = s.reports

/-- The remaining fires after the countdown of a fire (R25, R64). -/
def remainingAfterFire (x : Slot) : Half := if LastFire x ∨ x.run.unlimited = true then 0 else x.run.remaining - 1

/-- The report of a fire of slot `x` in `s`: the line as the fire finds it, the repeat countdown as the fire leaves it
(R63). -/
def fireReport (s : State) (x : SlotNo) (kind : ReportKind) : Report :=
  let r := reportOf s x kind (s.slot x).run.due (s.now (s.slot x).config.timebase)
  { r with
    flags :=
      { r.flags with
        overlap := decide ((s.slot x).config.action = .pulse ∧ (s.line (s.slot x).config.line).countdown ≠ 0)
        final := decide (LastFire (s.slot x))
        unlimited := (s.slot x).run.unlimited }
    remaining := remainingAfterFire (s.slot x) }

/-- The CHAIN_FAULT report of a fire of slot `x` in `s` whose chain attempt on `y` is refused (R75). -/
def chainFaultReport (s : State) (x y : SlotNo) (cause : ChainCause) : Report :=
  let r := fireReport s x .chainFault
  { r with flags := { r.flags with overlap := false, cause := cause }, aux := .successor y }

/-- The first three steps of a fire of slot `x`, from `s` to `t` (R62 to R64): the line action, then the report where report
enable is set, then the repeat countdown. After its last fire the slot is HELD and releases its line; after any other it
stands again in its due list, one period after the counter. -/
def FiresItself (s t : State) (x : SlotNo) (kind : ReportKind) (fresh : Bool) : Prop :=
  let c := (s.slot x).config
  t = (((s.withSlots t.slots).withSched t.sched).withLines t.lines).withReports t.reports ∧
  OnlyItsRun s t x
    (if LastFire (s.slot x) then heldRun
      else
        { (s.slot x).run with
          due := s.now c.timebase + c.period
          remaining := remainingAfterFire (s.slot x) }) ∧
  (LastFire (s.slot x) → t.list (.due c.timebase) = (s.list (.due c.timebase)).erase x) ∧
  (¬ LastFire (s.slot x) →
    InsertedByDistance (t.distanceOn c.timebase) x ((s.list (.due c.timebase)).erase x)
      (t.list (.due c.timebase))) ∧
  (∀ r, r ≠ .due c.timebase → t.list r = s.list r) ∧
  OnlyItsLine s t x (fun l =>
    if LastFire (s.slot x) then releasedBy x (acted c.action c.width fresh l) else acted c.action c.width fresh l) ∧
  t.reports = handed c.reportEnable (fireReport s x kind) s.reports

/-- Slot `y` passes the state, offset and line checks of a chain attempt (R73, Table 4-2). -/
def ChainPasses (s : State) (y : SlotNo) : Prop :=
  (s.slot y).run.state = .held ∧ 1 ≤ (s.slot y).config.offset.toNat ∧ (s.slot y).config.offset.toNat < 2 ^ 31 ∧
    ¬ OverlapsItself (s.slot y).config ∧ LineGranted s y

/-- The due/offset or the width of a slot fails the offset check of a chain attempt (R73, R19). -/
def BadChainOffset (c : SlotConfig) : Prop := c.offset = 0 ∨ 2 ^ 31 ≤ c.offset.toNat ∨ OverlapsItself c

/-- The cause of the first of those checks that slot `y` fails (R75). -/
def ChainRefused (s : State) (y : SlotNo) (cause : ChainCause) : Prop :=
  ((s.slot y).run.state ≠ .held ∧ cause = .notHeld) ∨
  ((s.slot y).run.state = .held ∧ BadChainOffset (s.slot y).config ∧ cause = .badOffset) ∨
  ((s.slot y).run.state = .held ∧ ¬ BadChainOffset (s.slot y).config ∧ ¬ LineGranted s y ∧ cause = .lineBusy)

/-- Slot `y` is armed one due/offset after the counter of its own timebase, from `m` to `t`, and nothing else changes
(R73). -/
def ChainArmed (m t : State) (y : SlotNo) : Prop :=
  ArmedInto m t y (m.now (m.slot y).config.timebase + (m.slot y).config.offset) ∧
  t = ((m.withSlots t.slots).withSched t.sched).withLines t.lines

/-- The fourth step of a fire of slot `x` that began in `s`, from `m` to `t` (R65, R73, R75, R76): nothing where chain
enable is clear; otherwise the successor is armed, or CHAIN_FAULT is posted and nothing else changes. -/
def FiresChain (s m t : State) (x : SlotNo) : Prop :=
  let c := (s.slot x).config
  (c.chainEnable = false → t = m) ∧
  (c.chainEnable = true → m.stop.level = .high →
    (ChainPasses m c.successor → ChainArmed m t c.successor) ∧
    ∀ cause, ChainRefused m c.successor cause →
      t = m.withReports (m.reports.append (chainFaultReport s x c.successor cause)))

/-- A fire of slot `x`, whole: its four steps in order, from `s` to `t` (R62). -/
def Fires (s t : State) (x : SlotNo) (kind : ReportKind) (fresh : Bool) : Prop :=
  ∃ m, FiresItself s m x kind fresh ∧ FiresChain s m t x

/-- The slots of a run fire in its order, each fire whole before the next begins (R61). -/
def FireInTurn (fresh : Bool) : List SlotNo → State → State → Prop
  | [], s, t => t = s
  | x :: xs, s, t => ∃ m, Fires s m x .fired fresh ∧ FireInTurn fresh xs m t

/-- Slot `y` is HELD as the chain attempt of a fire of `x` finds it: after the first three steps of the fire, which make
HELD only the firing slot, and that only at its last fire (R77). -/
def HeldAfterFire (s : State) (x y : SlotNo) : Prop :=
  (s.slot y).run.state = .held ∨ (y = x ∧ LastFire (s.slot x))

/-- The line check of slot `y` passes after the first three steps of a fire of `x`: an owner other than `y` has gone HELD by
its last fire, or is no holding owner (R79). -/
def GrantedAfterFire (s : State) (x y : SlotNo) : Prop :=
  (s.slot y).config.action = .none ∨
  ∀ o, (s.line (s.slot y).config.line).owner = some o →
    o = y ∨ (o = x ∧ LastFire (s.slot x)) ∨
    ¬ (((s.slot o).run.state = .armed ∨ (s.slot o).run.state = .waiting) ∧ (s.slot o).config.action ≠ .none ∧
      (s.slot o).config.line = (s.slot y).config.line)

/-- Slot `x` has its line claimed and its run part set to fire within an arm attempt, from `s` to `t` (R56, R57). -/
def ReadyToFire (s t : State) (x : SlotNo) (due : Word) : Prop :=
  t = (s.withSlots t.slots).withLines t.lines ∧ OnlyItsRun s t x (armedRun (s.slot x).config due) ∧
  OnlyItsLine s t x (claimed x)

/-- The kind of the report of a fire within an arm attempt (R56, R57). -/
def kindAt (due now : Word) : ReportKind := if due = now then .fired else .late

/-- An arm attempt on slot `x` by ARM or ARM BATCH, from `s` to `t`, with its error code: refused, inserted, fired within
the attempt, or dropped (R54 to R58). -/
def Attempted (s t : State) (option : Byte) (x : SlotNo) (err : ErrorCode) : Prop :=
  let c := (s.slot x).config
  let due := dueFor s option x
  let now := s.now c.timebase
  (ArmFails s x (OffsetOk option c) err ∧ t = s) ∨
  (ArmPasses s option x ∧ 2 ^ 31 ≤ (now - due).toNat ∧ err = .none ∧ ArmedInto s t x due ∧
    t = ((s.withSlots t.slots).withSched t.sched).withLines t.lines) ∨
  (ArmPasses s option x ∧ (now - due).toNat < 2 ^ 31 ∧ (due = now ∨ c.latePolicy = .fire) ∧ err = .none ∧
    ∃ m, ReadyToFire s m x due ∧ Fires m t x (kindAt due now) false) ∨
  (ArmPasses s option x ∧ (now - due).toNat < 2 ^ 31 ∧ due ≠ now ∧ c.latePolicy = .drop ∧ err = .dropped ∧
    t = (s.withLines t.lines).withReports t.reports ∧ OnlyItsLine s t x (fun l => { l with forced := false }) ∧
    t.reports = handed c.reportEnable (reportOf s x .dropped due now) s.reports)

/-- The entries of a block of ARM BATCH are taken in order up to the first that fails, from `s` to `t`: each success lowers
REMAIN by one; `failed` is the error code and the byte of the one that fails, none where all succeed (R140, R152). -/
def EntriesTaken (option : Byte) : List Byte → State → State → Option (ErrorCode × Byte) → Prop
  | [], s, t, failed => t = s ∧ failed = none
  | b :: bs, s, t, failed =>
    (128 ≤ b.toNat ∧ t = s ∧ failed = some (.badNumber, b)) ∨
    ∃ x : SlotNo, b.toNat = x.val ∧
      ((∃ err, err ≠ .none ∧ Attempted s t option x err ∧ failed = some (err, b)) ∨
        ∃ m, Attempted s m option x .none ∧
          EntriesTaken option bs (m.withEngine { m.engine with remain := m.engine.remain - 1 }) t failed)

/-- The named timebase of a select that names one (Table 12-10): bit 0 names TB0 and bit 1 TB1. -/
def Names (option : Byte) (tb : Timebase) : Prop :=
  option.getLsbD 0 = decide (tb = .tb0) ∧ option.getLsbD 1 = decide (tb = .tb1)

/-- The select names one timebase. -/
def NamesOne (option : Byte) : Prop := ∃ tb, Names option tb

/-- The command in progress has this code, with these latched parameters. -/
def InProgress (s : State) (code : Byte) (p : Params) : Prop := s.engine.current = some { code := code, params := p }

/-- The command with this code is in the ENGINE phase, with these latched parameters, whatever events were taken since its
acceptance and whatever the parameter registers hold now (R128, R132). -/
def Executing (s : State) (code : Byte) (p : Params) : Prop :=
  s.resetHeld = false ∧ s.engine.phase = .engine ∧ InProgress s code p

/-- The codes that name a command (Table 12-11). -/
def commandCodes : List Byte :=
  [0x00, 0x10, 0x11, 0x12, 0x13, 0x14, 0x20, 0x21, 0x22, 0x30, 0x31, 0x32, 0x33, 0x34, 0x40, 0x41, 0x42, 0x50, 0x51,
   0x52, 0x60]

/-- The engine as a command ends with `err` in an event of its own (R132). -/
def endedNow (e : Engine) (err : ErrorCode) : Engine :=
  { e with
    current := none
    phase := .idle
    error := err
    err := decide (err ≠ .none)
    cmdp := true
    buffer := .empty
    blockLength := 0
    bytePos := 0
    snapshot := []
    delivered := 0 }

/-- The engine as a block of `k` entries is opened with the buffer `b` (R137, R139). -/
def opened (e : Engine) (k : Nat) (b : TransferBuffer) : Engine :=
  { e with phase := .transfer, cmdp := true, buffer := b, blockLength := k, bytePos := 0 }

end Sys2Proof.Claims

open Sys2Proof Sys2Proof.Machine Sys2Proof.Claims

/-! ## The queue of commands, and RESET# -/

/-- A step takes the command at the front of the queue and is its meaning on the state with the queue's rest. -/
def Obligations.StepRunsFrontCommand : Prop :=
  ∀ (c : Instr) (rest : List Instr) (s : State), s.pending = c :: rest → step s = exec c (s.withPending rest)

/-- Every command answers a next state from every state: no row faults or is refused (0.4.5). That it leaves the commands
that wait behind it and the index of free values as they are is the model's choice (notes/assumptions/9.md, 6.md for
RESET_RELEASE, 2.md for the index). -/
def Obligations.EveryCommandAnswersNext : Prop :=
  ∀ (c : Instr) (s : State), ∃ t, exec c s = .next t ∧ t.pending = s.pending ∧ t.freeIndex = s.freeIndex

/-- With no command waiting a step is one CLK period (the model's choice, notes/assumptions/2.md): the base tick count
rises, and at the period of the tick code it restarts and the commands of one base tick are queued, in either order of
the line unit and the scheduler (R1, R2, R88); while RESET# is held nothing happens (R13). -/
def Obligations.EmptyQueueStepIsOneClkPeriod : Prop :=
  ∀ s : State, s.pending = [] →
    (s.resetHeld = true → step s = .next s) ∧
    (s.resetHeld = false → s.timebase.clkCount + 1 < 16 * 10 ^ s.timebase.tickCode.val →
      step s = .next (s.withTimebase { s.timebase with clkCount := s.timebase.clkCount + 1 })) ∧
    (s.resetHeld = false → 16 * 10 ^ s.timebase.tickCode.val ≤ s.timebase.clkCount + 1 →
      ∃ ticks,
        step s = .next (((s.withTimebase { s.timebase with clkCount := 0 }).withFreeIndex (s.freeIndex + 1)).withPending
          ticks) ∧
        (s.timebase.tb0.run = .held → ticks = [.baseTick]) ∧
        (s.timebase.tb0.run = .running →
          ticks = [.baseTick, .advance (.tb0 true)] ∨ ticks = [.advance (.tb0 false), .baseTick]))

/-- RESET# going low holds the device: it drives every OUT pin low, releases INT, drives no data, also at a read of any
register, and the record port holds its reset values; from then on every command but the two of RESET# leaves the state
as it is (R182, R35, R98). That the other blocks keep their contents until the release is the model's choice
(notes/assumptions/6.md): the manual does not say what they hold meanwhile. -/
def Obligations.ResetHeldDevice : Prop :=
  (∀ s : State, ∃ t, exec .resetAssertion s = .next t ∧
    t = ((s.withResetHeld true).withReadData none).withRecord
      { writeCursor := 0, writeStaging := [], readCursor := 0, readPos := 0, readStaging := none, last := .write,
        result := .none } ∧
    (∀ l, t.outPin l = .low) ∧ t.intAsserted = false ∧ ∀ a, t.quietRead a = none) ∧
  ∀ (c : Instr) (s : State), s.resetHeld = true → c ≠ .resetAssertion → (∀ pins, c ≠ .resetRelease pins) →
    exec c s = .next s

/-- The release of RESET#, or power-on, puts every block into its power-on values, the pin levels and STOPL by the levels
found, whatever the state before; the queue of commands is the model's and stays (notes/assumptions/6.md). The state
after reset is the one that such a release leaves, with the pin levels of notes/assumptions/3.md (the model's choice). -/
def Obligations.ResetReleaseGivesPowerOnValues : Prop :=
  (∀ (pins : PinLevels) (s : State), ∃ t, exec (.resetRelease pins) s = .next t ∧
    t.resetHeld = false ∧ t.readData = none ∧ t.pending = s.pending ∧ t.freeIndex = s.freeIndex ∧
    t.timebase =
      { tickCode := 0, clkCount := 0, tb0 := { count := 0, run := .running }, tb1 := { count := 0, run := .running },
        cntLevel := pins.cnt } ∧
    (∀ x, t.slot x = freeSlot) ∧ (∀ r, t.list r = []) ∧
    (∀ l, t.line l =
      { polarity := .activeHigh, safe := .low, logical := .inactive, owner := none, countdown := 0, forced := false,
        fresh := false } ∧ t.outPin l = .low) ∧
    (∀ n, t.trig n =
      { pin := pins.trg n, select := .none, lockLength := 0, lockLeft := 0, reportUnclaimed := false, bounce := 0 }) ∧
    t.reports = { entries := [], lost := 0, watermark := 1 } ∧
    t.record =
      { writeCursor := 0, writeStaging := [], readCursor := 0, readPos := 0, readStaging := none, last := .write,
        result := .none } ∧
    t.engine =
      { params :=
          { pSlot := 0, option := 0, count := 0, value0 := 0, value1 := 0, value2 := 0, value3 := 0 }
        current := none, phase := .idle, error := .none, remain := 0, err := false, cmdp := false, rej := false,
        blockSize := 1, buffer := .empty, blockLength := 0, bytePos := 0, snapshot := [], delivered := 0 } ∧
    t.intEnable = { cmd := false, report := false, stop := false } ∧
    t.stop = { level := pins.stop, qualCount := 0, stopl := decide (pins.stop = .low) }) ∧
  State.reset.pending = [] ∧ exec (.resetRelease resetPins) State.reset = .next State.reset

/-! ## Base ticks and advances -/

/-- A base tick (BASE_TICK): each line and each channel takes it by the rules of the countdowns, the base tick count
restarts, and nothing else changes, TB0 running or held (R86, R87, R104). That PULSE_END is the base tick of the line unit
alone and LOCKOUT_WINDOW_CLOSE that of the trigger unit alone, each in an event of its own that changes nothing else, is
the model's reading (notes/assumptions/1.md). -/
def Obligations.BaseTickInOneEventOrTwo : Prop :=
  (∀ s : State, s.resetHeld = false →
     ∃ t, exec .baseTick s = .next t ∧
       t = ((s.withTimebase { s.timebase with clkCount := 0 }).withLines t.lines).withTrigs t.trigs ∧
       (∀ l, TickedLine s l (t.line l)) ∧ ∀ n, t.trig n = tickedChannel (s.trig n)) ∧
  ∀ s : State, s.resetHeld = false →
    (∃ t, exec .pulseEnd s = .next t ∧ t = s.withLines t.lines ∧ ∀ l, TickedLine s l (t.line l)) ∧
    ∃ t, exec .lockoutWindowClose s = .next t ∧ t = s.withTrigs t.trigs ∧ ∀ n, t.trig n = tickedChannel (s.trig n)

/-- An advance: while its timebase is HELD nothing is counted; while it is RUNNING the counter rises by one, modulo 2^32,
and where no entry of its due list has the new counter as due point nothing else happens. -/
def Obligations.AdvanceCountsWhileRunning : Prop :=
  ∀ (s : State) (a : AdvanceOf), s.resetHeld = false →
    ((s.counterOf (timebaseOf a)).run = .held →
      exec (.advance a) s =
        .next (if a = .tb1 then s.withTimebase { s.timebase with cntLevel := .high } else s)) ∧
    ((s.counterOf (timebaseOf a)).run = .running → reachedAt s a = [] →
      exec (.advance a) s = .next (s.withTimebase (counted s.timebase a)))

/-- An advance fires the run of entries that it reaches, in list order, each fire whole before the next begins: line action,
report, repeat countdown and chain attempt, whatever their number, actions, periods and chains (R61 to R65). Where it
reaches one entry whose fire is its last, chain enable clear, the slot acts on its line, reports FIRED with FINAL, leaves
its list and is HELD, and releases its line. -/
def Obligations.AdvanceFiresLastTime : Prop :=
  (∀ (s : State) (a : AdvanceOf), s.resetHeld = false → (s.counterOf (timebaseOf a)).run = .running →
     ∃ t, exec (.advance a) s = .next t ∧
       FireInTurn (freshOf a) (reachedAt s a) (s.withTimebase (counted s.timebase a)) t) ∧
  ∀ (s : State) (a : AdvanceOf) (x : SlotNo), FiresAt s a x → LastFire (s.slot x) →
    (s.slot x).config.chainEnable = false →
    ∃ t, exec (.advance a) s = .next t ∧ OnlyScheduling s t (counted s.timebase a) ∧
      OnlyItsRun s t x heldRun ∧
      t.list (.due (timebaseOf a)) = (s.list (.due (timebaseOf a))).erase x ∧
      (∀ r, r ≠ .due (timebaseOf a) → t.list r = s.list r) ∧
      OnlyItsLine s t x (fun l =>
        releasedBy x (acted (s.slot x).config.action (s.slot x).config.width (freshOf a) l)) ∧
      t.reports = handed (s.slot x).config.reportEnable
        (lastFireReport s x .fired (s.slot x).run.due (s.now (timebaseOf a) + 1) (s.slot x).run.unlimited
          (s.line (s.slot x).config.line)) s.reports

/-- An advance that reaches one periodic entry with fires remaining, chain enable clear: the slot acts on its line, reports
FIRED, counts down, and is inserted again one period after the counter, keeping its line (R62 to R64, R50). -/
def Obligations.AdvanceFiresPeriodic : Prop :=
  ∀ (s : State) (a : AdvanceOf) (x : SlotNo), FiresAt s a x → ¬ LastFire (s.slot x) →
    (s.slot x).config.chainEnable = false →
    ∃ t, exec (.advance a) s = .next t ∧ OnlyScheduling s t (counted s.timebase a) ∧
      OnlyItsRun s t x
        { (s.slot x).run with
          due := s.now (timebaseOf a) + 1 + (s.slot x).config.period
          remaining := if (s.slot x).run.unlimited then 0 else (s.slot x).run.remaining - 1 } ∧
      InsertedByDistance (t.distanceOn (timebaseOf a)) x ((s.list (.due (timebaseOf a))).erase x)
        (t.list (.due (timebaseOf a))) ∧
      (∀ r, r ≠ .due (timebaseOf a) → t.list r = s.list r) ∧
      OnlyItsLine s t x (acted (s.slot x).config.action (s.slot x).config.width (freshOf a)) ∧
      t.reports = handed (s.slot x).config.reportEnable
        { reportOf s x .fired (s.slot x).run.due (s.now (timebaseOf a) + 1) with
          flags :=
            { (reportOf s x .fired (s.slot x).run.due (s.now (timebaseOf a) + 1)).flags with
              overlap := decide ((s.slot x).config.action = .pulse ∧ (s.line (s.slot x).config.line).countdown ≠ 0)
              unlimited := (s.slot x).run.unlimited }
          remaining := if (s.slot x).run.unlimited then 0 else (s.slot x).run.remaining - 1 } s.reports

/-- A slot that fires at an advance with chain enable set, whatever its action, report enable and period, first makes the
three steps of its own fire. A successor that then passes the chain checks, the slot itself after its last fire included,
is armed one due/offset after its own counter, on its own due list and line, and no report is added to the fire's
(R65, R73, R77, R79). -/
def Obligations.ChainArmsSuccessor : Prop :=
  ∀ (s s' : State) (a : AdvanceOf) (x y : SlotNo), FiresAt s a x → s' = s.withTimebase (counted s.timebase a) →
    (s.slot x).config.chainEnable = true → (s.slot x).config.successor = y → s.stop.level = .high →
    HeldAfterFire s x y → ¬ BadChainOffset (s.slot y).config → GrantedAfterFire s x y →
    ∃ m t, exec (.advance a) s = .next t ∧ FiresItself s' m x .fired (freshOf a) ∧ ChainArmed m t y ∧
      (t.slot y) =
        { config := (s.slot y).config
          run := armedRun (s.slot y).config (s'.now (s.slot y).config.timebase + (s.slot y).config.offset) }

/-- A slot that fires at an advance with chain enable set, whatever its action, report enable and period, and whose chain
attempt is refused at the state, offset or line check, posts CHAIN_FAULT with the cause of the first check that fails,
behind its own FIRED where that is posted: the slot stays as the three steps of its fire left it, HELD or ARMED again,
and the successor, every line and every list stay as they left them (R75 to R77, R79). -/
def Obligations.ChainFaultIsReported : Prop :=
  ∀ (s s' : State) (a : AdvanceOf) (x y : SlotNo) (cause : ChainCause), FiresAt s a x →
    s' = s.withTimebase (counted s.timebase a) → (s.slot x).config.chainEnable = true →
    (s.slot x).config.successor = y → s.stop.level = .high →
    ((¬ HeldAfterFire s x y ∧ cause = .notHeld) ∨
      (HeldAfterFire s x y ∧ BadChainOffset (s.slot y).config ∧ cause = .badOffset) ∨
      (HeldAfterFire s x y ∧ ¬ BadChainOffset (s.slot y).config ∧ ¬ GrantedAfterFire s x y ∧ cause = .lineBusy)) →
    ∃ m, FiresItself s' m x .fired (freshOf a) ∧
      exec (.advance a) s = .next (m.withReports (m.reports.append
        { reportOf s' x .chainFault (s.slot x).run.due (s.now (timebaseOf a) + 1) with
          flags :=
            { timebase := timebaseOf a, overlap := false, final := decide (LastFire (s.slot x)), noSlot := false,
              unlimited := (s.slot x).run.unlimited, cause := cause }
          remaining := remainingAfterFire (s.slot x)
          aux := .successor y }))

/-- A sample of CNT: the level follows; a rising edge taken while TB1 is RUNNING is a TB1 advance, and a falling edge, a
sample at the same level, or a rising edge taken while TB1 is HELD counts nothing (R5). -/
def Obligations.CntSample : Prop :=
  ∀ (s : State) (v : Level), s.resetHeld = false →
    (¬ (s.timebase.cntLevel = .low ∧ v = .high) ∨ s.timebase.tb1.run = .held →
      exec (.cntEdge v) s = .next (s.withTimebase { s.timebase with cntLevel := v })) ∧
    (s.timebase.cntLevel = .low → v = .high → s.timebase.tb1.run = .running →
      exec (.cntEdge v) s = exec (.advance .tb1) s ∧
      (reachedAt s .tb1 = [] → exec (.cntEdge v) s = .next (s.withTimebase (counted s.timebase .tb1))))

/-! ## Trigger edges -/

/-- A sample of TRGn that is no edge, or an edge that the edge select does not qualify, moves the pin level and nothing
else; a qualified edge inside a lockout window is ignored and counted, staying at 255, and the window stands. An
accepted edge that finds its wait list empty loads the window and, where the channel asks for it, posts UNCLAIMED
with the TB0 capture in value and the TB1 capture in at; no slot, list or line changes (R101 to R103, R108, R12). -/
def Obligations.TriggerEdgeIgnoredOrUnclaimed : Prop :=
  (∀ (s : State) (n : TrigNo) (v : Level), s.resetHeld = false →
     ((s.trig n).pin = v ∨ ¬ Qualified (s.trig n) v →
       exec (.triggerEdge n v) s = .next (s.setTrig n { s.trig n with pin := v })) ∧
     ((s.trig n).pin ≠ v → Qualified (s.trig n) v → (s.trig n).lockLeft ≠ 0 →
       exec (.triggerEdge n v) s = .next (s.setTrig n
         { s.trig n with
           pin := v
           bounce := if (s.trig n).bounce = 255 then 255 else (s.trig n).bounce + 1 }))) ∧
  ∀ (s : State) (n : TrigNo) (v : Level), EdgeAccepted s n v → s.list (.wait n) = [] →
    exec (.triggerEdge n v) s = .next
      ((s.setTrig n (acceptedChannel (s.trig n) v)).withReports
        (handed (s.trig n).reportUnclaimed
          { kind := .unclaimed
            flags :=
              { timebase := .tb0, overlap := false, final := false, noSlot := true, unlimited := false, cause := .none }
            slot := none
            tag := 0
            value := s.timebase.tb0.count
            at_ := s.timebase.tb1.count
            remaining := 0
            lost := 0
            aux := .trigger n } s.reports))

/-- An accepted edge binds the head of the wait list: with an offset of 1 or more the slot is ARMED at the capture of its
timebase plus its offset, remaining fires and unlimited flag kept, and stands in its due list; BOUND is posted where its
report enable is set; no line changes (R105, R106). -/
def Obligations.TriggerEdgeBindsHead : Prop :=
  ∀ (s : State) (n : TrigNo) (v : Level) (x : SlotNo) (rest : List SlotNo), EdgeAccepted s n v →
    s.list (.wait n) = x :: rest → (s.slot x).config.offset ≠ 0 →
    ∃ t, exec (.triggerEdge n v) s = .next t ∧
      t = (((s.setTrig n (acceptedChannel (s.trig n) v)).withSlots t.slots).withSched t.sched).withReports t.reports ∧
      OnlyItsRun s t x
        { (s.slot x).run with
          state := .armed
          bound := none
          due := s.now (s.slot x).config.timebase + (s.slot x).config.offset } ∧
      t.list (.wait n) = rest ∧
      InsertedByDistance (t.distanceOn (s.slot x).config.timebase) x (s.list (.due (s.slot x).config.timebase))
        (t.list (.due (s.slot x).config.timebase)) ∧
      (∀ r, r ≠ .wait n → r ≠ .due (s.slot x).config.timebase → t.list r = s.list r) ∧
      t.reports = handed (s.slot x).config.reportEnable (boundReport s x n) s.reports

/-- An accepted edge that binds a slot with offset 0 fires it within the edge event, after BOUND: the four steps of a fire
FIRED, due at the capture, whatever its action, period and chain (R107, R81). A one-shot slot with chain enable clear
posts BOUND and then FIRED with FINAL, acts on its line, is HELD and releases the line. -/
def Obligations.TriggerEdgeFiresAtOnce : Prop :=
  (∀ (s : State) (n : TrigNo) (v : Level) (x : SlotNo) (rest : List SlotNo), EdgeAccepted s n v →
     s.list (.wait n) = x :: rest → (s.slot x).config.offset = 0 →
     ∃ m t, exec (.triggerEdge n v) s = .next t ∧
       m = (((s.setTrig n (acceptedChannel (s.trig n) v)).withSlots m.slots).withSched m.sched).withReports m.reports ∧
       OnlyItsRun s m x
         { (s.slot x).run with state := .armed, bound := none, due := s.now (s.slot x).config.timebase } ∧
       m.list (.wait n) = rest ∧ (∀ r, r ≠ .wait n → m.list r = s.list r) ∧
       m.reports = handed (s.slot x).config.reportEnable (boundReport s x n) s.reports ∧
       Fires m t x .fired false) ∧
  ∀ (s : State) (n : TrigNo) (v : Level) (x : SlotNo) (rest : List SlotNo), EdgeAccepted s n v →
    s.list (.wait n) = x :: rest → (s.slot x).config.offset = 0 → (s.slot x).config.period = 0 →
    (s.slot x).config.chainEnable = false → x ∉ s.list (.due (s.slot x).config.timebase) →
    ∃ t, exec (.triggerEdge n v) s = .next t ∧
      t = ((((s.setTrig n (acceptedChannel (s.trig n) v)).withSlots t.slots).withSched t.sched).withLines
        t.lines).withReports t.reports ∧
      OnlyItsRun s t x heldRun ∧ t.list (.wait n) = rest ∧ (∀ r, r ≠ .wait n → t.list r = s.list r) ∧
      OnlyItsLine s t x (fun l =>
        releasedBy x (acted (s.slot x).config.action (s.slot x).config.width false l)) ∧
      t.reports =
        handed (s.slot x).config.reportEnable
          (lastFireReport s x .fired (s.now (s.slot x).config.timebase) (s.now (s.slot x).config.timebase)
            (s.slot x).run.unlimited (s.line (s.slot x).config.line))
          (handed (s.slot x).config.reportEnable (boundReport s x n) s.reports)

/-! ## Machine stop -/

/-- The assertion of STOP# empties the six lists, makes every ARMED and WAITING slot HELD, hands the queue a STOPPED report
for each whose report enable is set, in the order TB0, TB1, TRG0 to TRG3, each list from its head, puts every line at
its safe level, and sets STOPL (R169 to R171, R100). -/
def Obligations.StopAssertionGivesUpEverything : Prop :=
  ∀ s : State, s.resetHeld = false → s.stop.level = .high → ListsWf s → (∀ x, SlotWf (s.slot x)) →
    ∃ t, exec .stopAssertion s = .next t ∧
      t = ((((s.withSlots t.slots).withSched t.sched).withLines t.lines).withReports t.reports).withStop
        { level := .low, qualCount := 0, stopl := true } ∧
      (∀ r, t.list r = []) ∧
      (∀ x, t.slot x =
        if (s.slot x).run.state = .armed ∨ (s.slot x).run.state = .waiting then { s.slot x with run := heldRun }
        else s.slot x) ∧
      (∀ l, t.line l = atSafeLevel (s.line l)) ∧
      t.reports =
        (disarmReports s
          (s.list (.due .tb0) ++ s.list (.due .tb1) ++ s.list (.wait 0) ++ s.list (.wait 1) ++ s.list (.wait 2) ++
            s.list (.wait 3)) .stopped .none).foldl ReportQueue.append s.reports

/-- The release of STOP# changes the STOP# level and nothing else; its change sets the qualification count to 0 (R173, R168).
A STOP_RELEASE while STOP# is released, which R168 does not take, stands for one more sample at the STOP# level (the
model's choice, notes/assumptions/4.md). -/
def Obligations.StopReleaseChangesLevelOnly : Prop :=
  ∀ s : State, s.resetHeld = false →
    exec .stopRelease s = .next (s.withStop { level := .high, qualCount := 0, stopl := s.stop.stopl })

/-- A sample of STOP# at the STOP# level sets the qualification count to 0; one at the other level raises it, and the third
in a row takes the change. A STOP_ASSERTION while STOP# is asserted is one more sample at the STOP# level (the model's
choice, notes/assumptions/4.md). -/
def Obligations.StopSampleQualifies : Prop :=
  ∀ (s : State) (v : Level), s.resetHeld = false →
    (v = s.stop.level → exec (.stopSample v) s = .next (s.withStop { s.stop with qualCount := 0 })) ∧
    (v ≠ s.stop.level → s.stop.qualCount < 2 →
      exec (.stopSample v) s = .next (s.withStop { s.stop with qualCount := s.stop.qualCount + 1 })) ∧
    (v ≠ s.stop.level → 2 ≤ s.stop.qualCount →
      exec (.stopSample v) s = exec (if v = .low then .stopAssertion else .stopRelease) s) ∧
    (s.stop.level = .low → exec .stopAssertion s = .next (s.withStop { s.stop with qualCount := 0 }))

/-! ## Record port -/

/-- A write at RECORD PORT while the write field position is 0 to 14 stores the byte and raises the position, which CURSOR
STATE shows; the slot table, the read side and everything else stay. -/
def Obligations.RecordPortWriteStoresByte : Prop :=
  ∀ (s : State) (b : Byte), s.resetHeld = false → s.record.writeStaging.length ≤ 14 →
    ∃ t, exec (.recordPortWrite b) s = .next t ∧
      t = s.withRecord { s.record with writeStaging := s.record.writeStaging ++ [b], last := .write } ∧
      ∃ c, t.quietRead 0x03 = some c ∧ (c.extractLsb' 0 4).toNat = s.record.writeStaging.length + 1

/-- The sixteenth byte completes the write image: a format failure is REFUSED_FORMAT whatever the slot's state, an ARMED or
WAITING slot is REFUSED_STATE, and a FREE or HELD slot takes the record and is HELD; in each case the cursor advances, 127
followed by 0, and staging is emptied (R38, R39, R27). -/
def Obligations.RecordPortWriteCompletesImage : Prop :=
  ∀ (s : State) (b : Byte), s.resetHeld = false → s.record.writeStaging.length = 15 →
    (BadFormat (s.record.writeStaging ++ [b]) →
      exec (.recordPortWrite b) s = .next (s.withRecord (afterImage s.record .refusedFormat))) ∧
    (¬ BadFormat (s.record.writeStaging ++ [b]) →
      (s.slot s.record.writeCursor).run.state = .armed ∨ (s.slot s.record.writeCursor).run.state = .waiting →
      exec (.recordPortWrite b) s = .next (s.withRecord (afterImage s.record .refusedState))) ∧
    ∀ c, FormatOk c → Spells (s.record.writeStaging ++ [b]) c →
      ((s.slot s.record.writeCursor).run.state = .free →
        exec (.recordPortWrite b) s = .next
          ((s.setSlot s.record.writeCursor { config := c, run := heldRun }).withRecord
            (afterImage s.record .accepted))) ∧
      ((s.slot s.record.writeCursor).run.state = .held →
        exec (.recordPortWrite b) s = .next
          ((s.setSlot s.record.writeCursor { s.slot s.record.writeCursor with config := c }).withRecord
            (afterImage s.record .accepted)))

/-- A read at RECORD PORT returns the next byte of read staging, or, where it is empty, the first byte of a snapshot taken
now; the read of the twenty-fourth byte moves the cursor to the next slot, 127 followed by 0, and takes its snapshot, the
image of that slot in the layout of Tables 12-4 to 12-6; the slot table and the write side stay (R42, R43, R35, R32). -/
def Obligations.RecordPortRead : Prop :=
  ∀ s : State, s.resetHeld = false →
    (∀ img, s.record.readStaging = some img → s.record.readPos < 23 →
      exec .recordPortRead s = .next
        ((s.withRecord { s.record with readPos := s.record.readPos + 1, last := .read }).withReadData
          (some (img.getD s.record.readPos 0)))) ∧
    (∀ img, s.record.readStaging = some img → s.record.readPos = 23 →
      ∃ next, ReadImageOf next (s.slot (s.record.readCursor + 1)) ∧
        exec .recordPortRead s = .next
          ((s.withRecord
            { s.record with
              readCursor := s.record.readCursor + 1
              readPos := 0
              readStaging := some next
              last := .read }).withReadData (some (img.getD 23 0)))) ∧
    (s.record.readStaging = none →
      ∃ img, ReadImageOf img (s.slot s.record.readCursor) ∧
        exec .recordPortRead s = .next
          ((s.withRecord
            { s.record with
              readPos := 1
              readStaging := some img
              last := .read }).withReadData (some (img.getD 0 0))))

/-- A write at WRITE CURSOR stores the value modulo 128 and discards the partial image, without a commit, the commit result
as it stands. -/
def Obligations.WriteCursorDiscardsPartialImage : Prop :=
  ∀ (s : State) (b : Byte), s.resetHeld = false →
    ∃ (t : State) (x : SlotNo), exec (.writeCursor b) s = .next t ∧ x.val = b.toNat % 128 ∧
      t = s.withRecord { s.record with writeCursor := x, writeStaging := [], last := .write } ∧
      t.quietRead 0x01 = some (BitVec.ofNat 8 (b.toNat % 128))

/-- A write at READ CURSOR stores the value modulo 128 and places a fresh snapshot of that slot in read staging, at position
0, whatever it held before: the 24 bytes of Tables 12-4 to 12-6; the write side stays. -/
def Obligations.ReadCursorTakesSnapshot : Prop :=
  ∀ (s : State) (b : Byte), s.resetHeld = false →
    ∃ (t : State) (x : SlotNo) (img : List Byte), exec (.readCursor b) s = .next t ∧ x.val = b.toNat % 128 ∧
      ReadImageOf img (s.slot x) ∧
      t = s.withRecord
        { s.record with readCursor := x, readPos := 0, readStaging := some img, last := .read } ∧
      t.quietRead 0x02 = some (BitVec.ofNat 8 (b.toNat % 128))

/-! ## Transfer port -/

/-- While XFER is clear a read of TRANSFER PORT returns 00h and a write has no effect; in a block of ARM BATCH a read returns
00h, and in a read-direction block a write has no effect (R141, R138, R139). -/
def Obligations.TransferPortOutsideItsBlock : Prop :=
  ∀ (s : State) (b : Byte) (p : Params), s.resetHeld = false →
    (s.engine.phase ≠ .transfer → exec .transferPortRead s = .next (s.withReadData (some 0))) ∧
    (s.engine.phase ≠ .transfer → exec (.transferPortWrite b) s = .next s) ∧
    (InProgress s 0x14 p → exec .transferPortRead s = .next (s.withReadData (some 0))) ∧
    (InProgress s 0x20 p ∨ InProgress s 0x22 p → exec (.transferPortWrite b) s = .next s)

/-- A read of TRANSFER PORT in a block of READ REPORTS returns the byte at the position of the entry, in the layout of
Tables 12-7 and 12-8; the read of an entry's sixteenth byte removes the head of the queue and lowers REMAIN, and that of
the block's last byte also ends the block (R138, R123, R136). -/
def Obligations.TransferPortReadReports : Prop :=
  ∀ (s : State) (p : Params) (es : List Report) (r : Report), s.resetHeld = false → s.engine.phase = .transfer →
    InProgress s 0x20 p → s.engine.buffer = .reports es → es.length = s.engine.blockLength →
    es[s.engine.bytePos / 16]? = some r → s.engine.remain ≠ 0 →
    ∃ t img, exec .transferPortRead s = .next t ∧ ReportImageOf img r ∧
      t = ((s.withReports t.reports).withEngine t.engine).withReadData
        (some (img.getD (s.engine.bytePos % 16) 0)) ∧
      ((s.engine.bytePos + 1) % 16 ≠ 0 →
        t.reports = s.reports ∧ t.engine = { s.engine with bytePos := s.engine.bytePos + 1 }) ∧
      ((s.engine.bytePos + 1) % 16 = 0 →
        t.reports = { s.reports with entries := s.reports.entries.drop 1 } ∧
        (s.engine.bytePos + 1 < 16 * s.engine.blockLength →
          t.engine = { s.engine with bytePos := s.engine.bytePos + 1, remain := s.engine.remain - 1 }) ∧
        (s.engine.bytePos + 1 = 16 * s.engine.blockLength →
          t.engine =
            { s.engine with
              phase := .engine, remain := s.engine.remain - 1, buffer := .empty, blockLength := 0, bytePos := 0 }))

/-- A read of TRANSFER PORT in a block of READ DUE LIST returns the byte at the position of the entry, in the layout of Table
12-9; the read of an entry's eighth byte counts it delivered and lowers REMAIN, and that of the block's last byte also
ends the block; the due lists and the queue are not reached (R138, R136). -/
def Obligations.TransferPortReadDueList : Prop :=
  ∀ (s : State) (p : Params) (es : List DueEntry) (r : DueEntry), s.resetHeld = false →
    s.engine.phase = .transfer → InProgress s 0x22 p → s.engine.buffer = .dues es →
    es.length = s.engine.blockLength → es[s.engine.bytePos / 8]? = some r → s.engine.remain ≠ 0 →
    ∃ t img, exec .transferPortRead s = .next t ∧ DueImageOf img r ∧
      t = (s.withEngine t.engine).withReadData (some (img.getD (s.engine.bytePos % 8) 0)) ∧
      ((s.engine.bytePos + 1) % 8 ≠ 0 → t.engine = { s.engine with bytePos := s.engine.bytePos + 1 }) ∧
      ((s.engine.bytePos + 1) % 8 = 0 →
        (s.engine.bytePos + 1 < 8 * s.engine.blockLength →
          t.engine =
            { s.engine with
              bytePos := s.engine.bytePos + 1, remain := s.engine.remain - 1
              delivered := s.engine.delivered + 1 }) ∧
        (s.engine.bytePos + 1 = 8 * s.engine.blockLength →
          t.engine =
            { s.engine with
              phase := .engine, remain := s.engine.remain - 1, delivered := s.engine.delivered + 1
              buffer := .empty, blockLength := 0, bytePos := 0 }))

/-- A write of TRANSFER PORT in a block of ARM BATCH stores the byte unchecked and raises the position; the k-th byte ends
the block: XFER is cleared and BUSY is set (R139). -/
def Obligations.TransferPortWriteSlotNumber : Prop :=
  ∀ (s : State) (p : Params) (bs : List Byte) (b : Byte), s.resetHeld = false → s.engine.phase = .transfer →
    InProgress s 0x14 p → s.engine.buffer = .slots bs →
    (s.engine.bytePos + 1 < s.engine.blockLength →
      exec (.transferPortWrite b) s = .next (s.withEngine
        { s.engine with buffer := .slots (bs ++ [b]), bytePos := s.engine.bytePos + 1 })) ∧
    (s.engine.bytePos + 1 = s.engine.blockLength →
      exec (.transferPortWrite b) s = .next (s.withEngine
        { s.engine with phase := .engine, buffer := .slots (bs ++ [b]), bytePos := 0 }))

/-! ## Host port -/

/-- A read of STATUS returns the eight flags of Table 12-2 as they stand and then clears CMDP and REJ, and STOPL where STOP#
is released; nothing else changes (R176, R134, R171). -/
def Obligations.StatusReadReturnsThenClears : Prop :=
  ∀ s : State, s.resetHeld = false →
    ∃ b, exec .statusRead s = .next
        (((s.withEngine { s.engine with cmdp := false, rej := false }).withStop
          { s.stop with stopl := if s.stop.level = .low then s.stop.stopl else false }).withReadData (some b)) ∧
      b.getLsbD 0 = decide (s.engine.phase = .engine) ∧ b.getLsbD 1 = decide (s.engine.phase = .transfer) ∧
      b.getLsbD 2 = s.engine.err ∧ b.getLsbD 3 = s.engine.cmdp ∧
      b.getLsbD 4 = decide (s.reports.watermark ≤ s.reports.entries.length) ∧ b.getLsbD 5 = s.stop.stopl ∧
      b.getLsbD 6 = decide (s.reports.entries.length = 32) ∧ b.getLsbD 7 = s.engine.rej ∧
      s.quietRead 0x0F = some b

/-- An ABORT while the engine is IDLE has no effect; otherwise it ends the command with ABORTED in its own event: no result
is written, REMAIN stands, the buffers are emptied, and no other block is reached (R142). -/
def Obligations.AbortEndsCommand : Prop :=
  ∀ s : State, s.resetHeld = false →
    (s.engine.phase = .idle → exec .abort s = .next s) ∧
    (s.engine.phase ≠ .idle → exec .abort s = .next (s.withEngine
      { s.engine with
        current := none, phase := .idle, error := .aborted, err := true, cmdp := true, buffer := .empty
        blockLength := 0, bytePos := 0, snapshot := [], delivered := 0 }))

/-- A soft reset: every ARMED or WAITING slot is HELD with its configuration kept, the six lists are empty, every line is at
its safe level without owner, pulse, forced flag or marker, windows and bounce counts are 0, the queue is empty with its
watermark kept, the record port's staging is empty with its cursors kept, and the engine is at its power-on values but
for B; the timebase unit, INT ENABLE and the stop monitor are kept, and no report is posted. -/
def Obligations.SoftReset : Prop :=
  ∀ s : State, s.resetHeld = false →
    ∃ t, exec .softReset s = .next t ∧
      t = (((((((s.withSlots t.slots).withSched t.sched).withLines t.lines).withTrigs t.trigs).withReports
        { entries := [], lost := 0, watermark := s.reports.watermark }).withRecord
          { s.record with writeStaging := [], readPos := 0, readStaging := none, result := .none }).withEngine
        { params :=
            { pSlot := 0, option := 0, count := 0, value0 := 0, value1 := 0, value2 := 0, value3 := 0 }
          current := none, phase := .idle, error := .none, remain := 0, err := false, cmdp := false, rej := false,
          blockSize := s.engine.blockSize, buffer := .empty, blockLength := 0, bytePos := 0, snapshot := [],
          delivered := 0 }) ∧
      (∀ x, t.slot x =
        if (s.slot x).run.state = .armed ∨ (s.slot x).run.state = .waiting then { s.slot x with run := heldRun }
        else s.slot x) ∧
      (∀ r, t.list r = []) ∧ (∀ l, t.line l = { atSafeLevel (s.line l) with fresh := false }) ∧
      ∀ n, t.trig n = { s.trig n with lockLeft := 0, bounce := 0 }

/-- A write at INT ENABLE stores bits 2 to 0 and ignores the others, which read 0, and INT follows at once: it is asserted
exactly while CMDP, REPL or STOPL is set together with its enable (R178). -/
def Obligations.IntEnableAndInt : Prop :=
  ∀ (s : State) (b : Byte), s.resetHeld = false →
    ∃ t, exec (.intEnable b) s = .next t ∧
      t = s.withIntEnable { cmd := b.getLsbD 0, report := b.getLsbD 1, stop := b.getLsbD 2 } ∧
      t.quietRead 0x10 = some (b &&& 0x07) ∧
      (t.intAsserted = true ↔
        (s.engine.cmdp = true ∧ b.getLsbD 0 = true) ∨
        (s.reports.watermark ≤ s.reports.entries.length ∧ b.getLsbD 1 = true) ∨
        (s.stop.stopl = true ∧ b.getLsbD 2 = true))

/-- A write at WATERMARK stores 1 to 32 as written, 0 as 1 and 33 to 255 as 32, a read returns the stored value, and REPL is
evaluated against it at once (R179, R122). -/
def Obligations.WatermarkIsClamped : Prop :=
  ∀ (s : State) (b : Byte), s.resetHeld = false →
    ∃ (t : State) (w : Nat), exec (.watermark b) s = .next t ∧ t = s.withReports { s.reports with watermark := w } ∧
      (b.toNat = 0 → w = 1) ∧ (1 ≤ b.toNat → b.toNat ≤ 32 → w = b.toNat) ∧ (33 ≤ b.toNat → w = 32) ∧
      t.quietRead 0x11 = some (BitVec.ofNat 8 w) ∧ t.repl = decide (w ≤ s.reports.entries.length)

/-- A write of a parameter register stores the byte, in any phase, and a read returns it; a write of a read-only register,
of 18h to 1Fh, or of CONTROL with neither bit set has no effect (R128, R175, R177). A REGISTER_WRITE at the address of
another row, and a BAD_COMMAND whose code names a command, is that row's write (the model's reading,
notes/assumptions/10.md). -/
def Obligations.RegisterWrite : Prop :=
  ∀ (s : State) (b : Byte), s.resetHeld = false →
    (∃ t, exec (.registerWrite 0x05 b) s = .next t ∧
      t = s.withEngine { s.engine with params := { s.engine.params with pSlot := b } } ∧ t.quietRead 0x05 = some b) ∧
    (∃ t, exec (.registerWrite 0x06 b) s = .next t ∧
      t = s.withEngine { s.engine with params := { s.engine.params with option := b } } ∧
      t.quietRead 0x06 = some b) ∧
    (∃ t, exec (.registerWrite 0x07 b) s = .next t ∧
      t = s.withEngine { s.engine with params := { s.engine.params with count := b } } ∧ t.quietRead 0x07 = some b) ∧
    (∃ t, exec (.registerWrite 0x08 b) s = .next t ∧
      t = s.withEngine { s.engine with params := { s.engine.params with value0 := b } } ∧
      t.quietRead 0x08 = some b) ∧
    (∃ t, exec (.registerWrite 0x09 b) s = .next t ∧
      t = s.withEngine { s.engine with params := { s.engine.params with value1 := b } } ∧
      t.quietRead 0x09 = some b) ∧
    (∃ t, exec (.registerWrite 0x0A b) s = .next t ∧
      t = s.withEngine { s.engine with params := { s.engine.params with value2 := b } } ∧
      t.quietRead 0x0A = some b) ∧
    (∃ t, exec (.registerWrite 0x0B b) s = .next t ∧
      t = s.withEngine { s.engine with params := { s.engine.params with value3 := b } } ∧
      t.quietRead 0x0B = some b) ∧
    (∀ a : Addr, a.toNat = 0x03 ∨ a.toNat = 0x0C ∨ a.toNat = 0x0D ∨ 0x12 ≤ a.toNat →
      exec (.registerWrite a b) s = .next s) ∧
    (b.getLsbD 0 = false → b.getLsbD 1 = false → exec (.registerWrite 0x0F b) s = .next s) ∧
    exec (.registerWrite 0x00 b) s = exec (.recordPortWrite b) s ∧
    exec (.registerWrite 0x01 b) s = exec (.writeCursor b) s ∧
    exec (.registerWrite 0x02 b) s = exec (.readCursor b) s ∧
    exec (.registerWrite 0x04 b) s = exec (.transferPortWrite b) s ∧
    exec (.registerWrite 0x0E b) s = exec (rowOfCode b) s ∧ exec (.badCommand b) s = exec (rowOfCode b) s ∧
    (b.getLsbD 0 = true → b.getLsbD 1 = false → exec (.registerWrite 0x0F b) s = exec .abort s) ∧
    (b.getLsbD 1 = true → exec (.registerWrite 0x0F b) s = exec .softReset s) ∧
    exec (.registerWrite 0x10 b) s = exec (.intEnable b) s ∧
    exec (.registerWrite 0x11 b) s = exec (.watermark b) s

/-! ## Commands: acceptance and refusal -/

/-- Every write of a code at COMMAND while BUSY and XFER are clear is accepted: the code and the seven parameters are
latched, BUSY is set, ERR and CMDP are cleared, ERROR is 00h, REMAIN is COUNT for the three counted commands and 0 for
any other, REJ stays, and no other block is reached; the command is then in the ENGINE phase with those latched
parameters (R128); READ DUE LIST, where its checks pass, takes the snapshot of the named due list in list order (R129,
R69). -/
def Obligations.CommandIsAccepted : Prop :=
  ∀ (i : Instr) (b : Byte) (s : State), codeOfRow i = some b → Ready s →
    ∃ t, exec i s = .next t ∧
      t = s.withEngine
        { s.engine with
          current := some { code := b, params := s.engine.params }
          phase := .engine
          err := false
          cmdp := false
          error := .none
          remain := if b = 0x14 ∨ b = 0x20 ∨ b = 0x22 then s.engine.params.count else 0
          snapshot := t.engine.snapshot
          delivered := 0 } ∧
      Executing t b s.engine.params ∧
      (b ≠ 0x22 → t.engine.snapshot = []) ∧
      (∀ tb, b = 0x22 → Names s.engine.params.option tb → 1 ≤ s.engine.params.count.toNat →
        s.engine.params.count.toNat ≤ 128 →
        t.engine.snapshot = (s.list (.due tb)).map fun x =>
          { slot := x
            timebase := (s.slot x).config.timebase
            periodic := decide ((s.slot x).config.period ≠ 0)
            unlimited := (s.slot x).run.unlimited
            due := (s.slot x).run.due
            remaining := (s.slot x).run.remaining }) ∧
      (b = 0x22 → (¬ NamesOne s.engine.params.option ∨ s.engine.params.count = 0 ∨
        128 < s.engine.params.count.toNat) → t.engine.snapshot = [])

/-- A write of a code at COMMAND while BUSY or XFER is set is refused: REJ is set and everything else, the command in
progress included, is left as it was. -/
def Obligations.CommandIsRefusedWhileBusy : Prop :=
  ∀ (i : Instr) (b : Byte) (s : State), codeOfRow i = some b → s.resetHeld = false → s.engine.phase ≠ .idle →
    exec i s = .next (s.withEngine { s.engine with rej := true })

/-! ## Arming commands -/

/-- The completion of ARM on a slot that passes its checks and whose due point is not reached: the slot is ARMED at the due
point of the mode and inserted in its due list, its line is claimed, and the outcome is NONE (R147, R54, R55). The slot
number and the mode are the latched ones. -/
def Obligations.ArmInsertsSlot : Prop :=
  ∀ (s : State) (p : Params) (x : SlotNo), Executing s 0x10 p → p.pSlot.toNat = x.val → ArmPasses s p.option x →
    2 ^ 31 ≤ (s.now (s.slot x).config.timebase - dueFor s p.option x).toNat →
    ∃ u, exec .completion s = .next u ∧ ArmedInto s u x (dueFor s p.option x) ∧
      u = (((s.withEngine (endedNow s.engine .none)).withSlots u.slots).withSched u.sched).withLines u.lines

/-- The completion of ARM on a slot that passes its checks, whose due point is the counter, or past under late policy FIRE:
the slot fires within the attempt, FIRED or LATE, with the four steps of a fire, whatever its action, period and chain;
a slot with fires remaining stands again one period after the counter (R56, R57, R80), and the outcome is NONE. One that
makes one fire and no chain posts FIRED or LATE with FINAL, acts on its line, and is HELD again. -/
def Obligations.ArmFiresAtOnce : Prop :=
  ∀ (s : State) (p : Params) (x : SlotNo) (due now : Word), Executing s 0x10 p → p.pSlot.toNat = x.val →
    ArmPasses s p.option x → due = dueFor s p.option x →
    now = s.now (s.slot x).config.timebase → (now - due).toNat < 2 ^ 31 →
    (due = now ∨ (s.slot x).config.latePolicy = .fire) →
    (∃ m t, ReadyToFire s m x due ∧ Fires m t x (kindAt due now) false ∧
      exec .completion s = .next (t.withEngine (endedNow s.engine .none))) ∧
    (((s.slot x).config.period = 0 ∨ (s.slot x).config.repeats = 1) → (s.slot x).config.chainEnable = false →
      x ∉ s.list (.due (s.slot x).config.timebase) →
      ∃ u, exec .completion s = .next u ∧
        u = (((s.withEngine (endedNow s.engine .none)).withSlots u.slots).withLines u.lines).withReports u.reports ∧
        OnlyItsRun s u x heldRun ∧
        OnlyItsLine s u x (fun l =>
          releasedBy x (acted (s.slot x).config.action (s.slot x).config.width false (claimed x l))) ∧
        u.reports = handed (s.slot x).config.reportEnable
          (lastFireReport s x (kindAt due now) due now false (s.line (s.slot x).config.line)) s.reports)

/-- The completion of ARM on a slot that passes its checks, whose due point is past, under late policy DROP: the slot stays
HELD, its line's owner is as before the attempt with the forced flag clear, DROPPED is posted where its report enable is
set, and the outcome is DROPPED (R58, R92). -/
def Obligations.ArmDropsLateSlot : Prop :=
  ∀ (s : State) (p : Params) (x : SlotNo) (due now : Word), Executing s 0x10 p → p.pSlot.toNat = x.val →
    ArmPasses s p.option x → due = dueFor s p.option x →
    now = s.now (s.slot x).config.timebase → (now - due).toNat < 2 ^ 31 → due ≠ now →
    (s.slot x).config.latePolicy = .drop →
    ∃ u, exec .completion s = .next u ∧
      u = ((s.withEngine (endedNow s.engine .dropped)).withLines u.lines).withReports u.reports ∧
      OnlyItsLine s u x (fun l => { l with forced := false }) ∧
      u.reports = handed (s.slot x).config.reportEnable (reportOf s x .dropped due now) s.reports

/-- The completion of ARM ON TRIGGER on a HELD slot that passes its checks: the slot is WAITING on the trigger at the tail of
its wait list, its line is claimed, and the outcome is NONE (R148, R59). -/
def Obligations.ArmOnTriggerSetsWaiting : Prop :=
  ∀ (s : State) (p : Params) (x : SlotNo) (n : TrigNo), Executing s 0x11 p → p.pSlot.toNat = x.val →
    p.option.toNat = n.val → s.stop.level = .high → (s.slot x).run.state = .held →
    (s.slot x).config.offset.toNat < 2 ^ 31 → ¬ OverlapsItself (s.slot x).config → LineGranted s x →
    ∃ u, exec .completion s = .next u ∧
      u = (((s.withEngine (endedNow s.engine .none)).withSlots u.slots).withSched u.sched).withLines u.lines ∧
      OnlyItsRun s u x
        { state := .waiting
          bound := some n
          due := 0
          remaining := startRemaining (s.slot x).config
          unlimited := startUnlimited (s.slot x).config } ∧
      u.list (.wait n) = s.list (.wait n) ++ [x] ∧ (∀ r, r ≠ .wait n → u.list r = s.list r) ∧
      OnlyItsLine s u x (claimed x)

/-- ARM and ARM ON TRIGGER that fail a check end at their completion with the code of the first that fails, slot number (and
trigger number), stop, state, offset and line in that order, and change nothing at any block but the engine (R147, R148,
R54, R59). -/
def Obligations.ArmAndArmOnTriggerRefusals : Prop :=
  (∀ (s : State) (p : Params), Executing s 0x10 p →
     (128 ≤ p.pSlot.toNat → exec .completion s = .next (s.withEngine (endedNow s.engine .badNumber))) ∧
     ∀ (x : SlotNo) (err : ErrorCode), p.pSlot.toNat = x.val →
       ArmFails s x (OffsetOk p.option (s.slot x).config) err →
       exec .completion s = .next (s.withEngine (endedNow s.engine err))) ∧
  ∀ (s : State) (p : Params), Executing s 0x11 p →
    (128 ≤ p.pSlot.toNat ∨ 4 ≤ p.option.toNat →
      exec .completion s = .next (s.withEngine (endedNow s.engine .badNumber))) ∧
    ∀ (x : SlotNo) (err : ErrorCode), p.pSlot.toNat = x.val → p.option.toNat < 4 →
      ArmFails s x ((s.slot x).config.offset.toNat < 2 ^ 31 ∧ ¬ OverlapsItself (s.slot x).config) err →
      exec .completion s = .next (s.withEngine (endedNow s.engine err))

/-- The completion of CANCEL on an ARMED or WAITING slot takes it from its list, makes it HELD, cuts its line where CUT is
set and the slot owns it, releases the line, and posts CANCELLED where its report enable is set, the outcome NONE (R149,
R66, R67, R97). -/
def Obligations.CancelDisarmsSlot : Prop :=
  ∀ (s : State) (p : Params) (x : SlotNo) (r : ListRef), Executing s 0x12 p → p.pSlot.toNat = x.val →
    (((s.slot x).run.state = .armed ∧ r = .due (s.slot x).config.timebase) ∨
      ∃ n, (s.slot x).run.state = .waiting ∧ (s.slot x).run.bound = some n ∧ r = .wait n) →
    ∃ u, exec .completion s = .next u ∧
      u = ((((s.withEngine (endedNow s.engine .none)).withSlots u.slots).withSched u.sched).withLines
        u.lines).withReports u.reports ∧
      OnlyItsRun s u x heldRun ∧ u.list r = (s.list r).erase x ∧ (∀ q, q ≠ r → u.list q = s.list q) ∧
      OnlyItsLine s u x (fun l => releasedBy x
        (if p.option.getLsbD 0 = true ∧ l.owner = some x then
          { l with logical := .inactive, countdown := 0 } else l)) ∧
      u.reports = handed (s.slot x).config.reportEnable (disarmReport s x .cancelled .none) s.reports

/-- CANCEL and RELEASE at their completion, by state: CANCEL of a HELD or FREE slot and RELEASE of a slot that is not HELD
end BAD_STATE, a slot number above 127 ends BAD_NUMBER, and each leaves every block but the engine as it was; RELEASE of a
HELD slot makes it FREE with an all-zero configuration, its line and its lists as they were (R149, R67, R150, R30). -/
def Obligations.CancelRefusalsAndRelease : Prop :=
  ∀ (s : State) (p : Params) (b : Byte), (b = 0x12 ∨ b = 0x13) → Executing s b p →
    (128 ≤ p.pSlot.toNat → exec .completion s = .next (s.withEngine (endedNow s.engine .badNumber))) ∧
    ∀ x : SlotNo, p.pSlot.toNat = x.val →
      (b = 0x12 → (s.slot x).run.state = .held ∨ (s.slot x).run.state = .free →
        exec .completion s = .next (s.withEngine (endedNow s.engine .badState))) ∧
      (b = 0x13 → (s.slot x).run.state ≠ .held →
        exec .completion s = .next (s.withEngine (endedNow s.engine .badState))) ∧
      (b = 0x13 → (s.slot x).run.state = .held →
        exec .completion s = .next ((s.withEngine (endedNow s.engine .none)).setSlot x freeSlot))

/-! ## Report, timebase, line, trigger and engine commands -/

/-- At the completion event NOP ends NONE, and a code that names no command ends BAD_COMMAND, with no effect on any block but
the engine; CLEAR REPORTS empties the queue, lost count 0, watermark kept; SET BLOCK stores COUNT of 1 to 8 as B and
refuses any other with BAD_PARAM (R167, R129, R154, R125, R166). A transfer command whose acceptance check fails opens no
block: its next event is its completion with BAD_PARAM, REMAIN as it stands, and no other block is reached (R151, R153,
R155). -/
def Obligations.NopBadCommandClearReportsSetBlock : Prop :=
  ∀ (s : State) (b : Byte) (p : Params), Executing s b p →
    (b = 0x00 → exec .completion s = .next (s.withEngine (endedNow s.engine .none))) ∧
    (b ∉ commandCodes → exec .completion s = .next (s.withEngine (endedNow s.engine .badCommand))) ∧
    (b = 0x21 → exec .completion s = .next
      ((s.withEngine (endedNow s.engine .none)).withReports
        { entries := [], lost := 0, watermark := s.reports.watermark })) ∧
    (b = 0x60 → 1 ≤ p.count.toNat → p.count.toNat ≤ 8 →
      exec .completion s = .next (s.withEngine { endedNow s.engine .none with blockSize := p.count.toNat })) ∧
    (b = 0x60 → p.count.toNat = 0 ∨ 8 < p.count.toNat →
      exec .completion s = .next (s.withEngine (endedNow s.engine .badParam))) ∧
    (((b = 0x14 ∨ b = 0x20) ∧ (p.count = 0 ∨ 64 < p.count.toNat)) ∨
        (b = 0x22 ∧ (¬ NamesOne p.option ∨ p.count = 0 ∨ 128 < p.count.toNat)) →
      exec .completion s = .next (s.withEngine (endedNow s.engine .badParam)))

/-- At its completion event SET TIMEBASE loads the named counter where its due list is empty, run state kept, and ends
TB_BUSY otherwise; a select of NONE or BOTH ends BAD_PARAM (R156, R10). HOLD TIMEBASE and RESUME TIMEBASE set the run
state of each named timebase and change nothing else; a select of NONE ends BAD_PARAM (R157, R8, R9). -/
def Obligations.SetHoldAndResumeTimebase : Prop :=
  (∀ (s : State) (p : Params), Executing s 0x30 p →
     (¬ NamesOne p.option → exec .completion s = .next (s.withEngine (endedNow s.engine .badParam))) ∧
     ∀ tb, Names p.option tb →
       (s.list (.due tb) ≠ [] → exec .completion s = .next (s.withEngine (endedNow s.engine .tbBusy))) ∧
       (s.list (.due tb) = [] →
         ∃ u, exec .completion s = .next u ∧
           u = (s.withEngine (endedNow s.engine .none)).withTimebase u.timebase ∧
           u.timebase =
             (if tb = .tb0 then { s.timebase with tb0 := { s.timebase.tb0 with count := u.now tb } }
               else { s.timebase with tb1 := { s.timebase.tb1 with count := u.now tb } }) ∧
           (u.now tb).toNat =
             p.value0.toNat + 2 ^ 8 * p.value1.toNat + 2 ^ 16 * p.value2.toNat + 2 ^ 24 * p.value3.toNat)) ∧
  ∀ (s : State) (p : Params) (b : Byte) (r : RunState), Executing s b p →
    ((b = 0x31 ∧ r = .held) ∨ (b = 0x32 ∧ r = .running)) →
    (p.option.getLsbD 0 = false → p.option.getLsbD 1 = false →
      exec .completion s = .next (s.withEngine (endedNow s.engine .badParam))) ∧
    (p.option.getLsbD 0 = true ∨ p.option.getLsbD 1 = true →
      exec .completion s = .next ((s.withEngine (endedNow s.engine .none)).withTimebase
        { s.timebase with
          tb0 := { s.timebase.tb0 with run := if p.option.getLsbD 0 then r else s.timebase.tb0.run }
          tb1 := { s.timebase.tb1 with run := if p.option.getLsbD 1 then r else s.timebase.tb1.run } }))

/-- At its completion event READ TIME places the counter that the latched OPTION names in VALUE0 to VALUE3, least significant
byte in VALUE0, and the run states and the tick code in OPTION, whose bits 7 to 4 read 0; a select of NONE or BOTH ends
BAD_PARAM and writes no result (R158, R11). -/
def Obligations.ReadTime : Prop :=
  ∀ (s : State) (p : Params), Executing s 0x33 p →
    (¬ NamesOne p.option → exec .completion s = .next (s.withEngine (endedNow s.engine .badParam))) ∧
    ∀ tb, Names p.option tb →
      ∃ (o v0 v1 v2 v3 : Byte),
        exec .completion s = .next (s.withEngine
          { endedNow s.engine .none with
            params :=
              { s.engine.params with option := o, value0 := v0, value1 := v1, value2 := v2, value3 := v3 } }) ∧
        (s.now tb).toNat = v0.toNat + 2 ^ 8 * v1.toNat + 2 ^ 16 * v2.toNat + 2 ^ 24 * v3.toNat ∧
        o.getLsbD 0 = decide (s.timebase.tb0.run = .held) ∧ o.getLsbD 1 = decide (s.timebase.tb1.run = .held) ∧
        (o.extractLsb' 2 2).toNat = s.timebase.tickCode.val ∧ o.extractLsb' 4 4 = 0

/-- At its completion event SET TICK stores the tick code and restarts the base tick count, unless the TB0 due list holds an
entry or a pulse is pending, which ends TB_BUSY; a code above 3 ends BAD_PARAM (R159, R3). -/
def Obligations.SetTick : Prop :=
  ∀ (s : State) (p : Params), Executing s 0x34 p →
    (4 ≤ p.value0.toNat → exec .completion s = .next (s.withEngine (endedNow s.engine .badParam))) ∧
    (p.value0.toNat < 4 → (s.list (.due .tb0) ≠ [] ∨ ∃ l, (s.line l).countdown ≠ 0) →
      exec .completion s = .next (s.withEngine (endedNow s.engine .tbBusy))) ∧
    ∀ code : Fin 4, p.value0.toNat = code.val → s.list (.due .tb0) = [] → (∀ l, (s.line l).countdown = 0) →
      exec .completion s = .next
        ((s.withEngine (endedNow s.engine .none)).withTimebase { s.timebase with tickCode := code, clkCount := 0 })

/-- At its completion event CONFIGURE LINE of an unowned line stores polarity and safe level, clears the forced flag and
drives the line INACTIVE, or to the new safe level while STOP# is asserted; an owned line ends LINE_BUSY and a number
above 15 BAD_NUMBER (R160, R95). -/
def Obligations.ConfigureLine : Prop :=
  ∀ (s : State) (q : Params), Executing s 0x40 q →
    (16 ≤ q.pSlot.toNat → exec .completion s = .next (s.withEngine (endedNow s.engine .badNumber))) ∧
    ∀ (l : LineNo) (p : Polarity) (v : Level), q.pSlot.toNat = l.val →
      p = (if q.option.getLsbD 0 then .activeLow else .activeHigh) →
      v = (if q.option.getLsbD 1 then .high else .low) →
      ((s.line l).owner ≠ none → exec .completion s = .next (s.withEngine (endedNow s.engine .lineBusy))) ∧
      ((s.line l).owner = none →
        exec .completion s = .next ((s.withEngine (endedNow s.engine .none)).setLine l
          { s.line l with
            polarity := p
            safe := v
            forced := false
            logical := if s.stop.level = .low then safeState p v else .inactive }))

/-- At its completion event FORCE LINE of an unowned line while STOP# is released sets the logical state and the forced flag;
the checks are the line number, the stop and the owner, in that order (R161, R94). -/
def Obligations.ForceLine : Prop :=
  ∀ (s : State) (p : Params), Executing s 0x41 p →
    (16 ≤ p.pSlot.toNat → exec .completion s = .next (s.withEngine (endedNow s.engine .badNumber))) ∧
    ∀ l : LineNo, p.pSlot.toNat = l.val →
      (s.stop.level = .low → exec .completion s = .next (s.withEngine (endedNow s.engine .stopped))) ∧
      (s.stop.level = .high → (s.line l).owner ≠ none →
        exec .completion s = .next (s.withEngine (endedNow s.engine .lineBusy))) ∧
      (s.stop.level = .high → (s.line l).owner = none →
        exec .completion s = .next ((s.withEngine (endedNow s.engine .none)).setLine l
          { s.line l with
            logical := if p.option.getLsbD 0 then .active else .inactive
            forced := true }))

/-- At its completion event QUERY LINE places the owner or FFh in P-SLOT, the logical state and the forced flag in OPTION,
whose bits 7 to 2 read 0, the countdown in VALUE0 and VALUE1 and 0 in VALUE2 and VALUE3, and changes nothing on the line; a
number above 15 ends BAD_NUMBER and writes no result (R162, R96). -/
def Obligations.QueryLine : Prop :=
  ∀ (s : State) (q : Params), Executing s 0x42 q →
    (16 ≤ q.pSlot.toNat → exec .completion s = .next (s.withEngine (endedNow s.engine .badNumber))) ∧
    ∀ l : LineNo, q.pSlot.toNat = l.val →
      ∃ (p o v0 v1 : Byte),
        exec .completion s = .next (s.withEngine
          { endedNow s.engine .none with
            params :=
              { s.engine.params with pSlot := p, option := o, value0 := v0, value1 := v1, value2 := 0, value3 := 0 } }) ∧
        ((s.line l).owner = none → p = 0xFF) ∧ (∀ x, (s.line l).owner = some x → p.toNat = x.val) ∧
        o.getLsbD 0 = decide ((s.line l).logical = .active) ∧ o.getLsbD 1 = (s.line l).forced ∧
        o.extractLsb' 2 6 = 0 ∧ (s.line l).countdown.toNat = v0.toNat + 2 ^ 8 * v1.toNat

/-- At their completion events CONFIGURE TRIGGER stores edge select, report unclaimed and lockout length and leaves the pin
level, the window, the bounce count and the wait list; QUERY TRIGGER places the length of the wait list in COUNT, the
bounce count in VALUE0, the head or FFh in VALUE1 and 0 in VALUE2 and VALUE3, and then sets the bounce count to 0; a number
above 3 ends BAD_NUMBER (R163, R110, R165, R112). -/
def Obligations.ConfigureAndQueryTrigger : Prop :=
  ∀ (s : State) (p : Params) (b : Byte), (b = 0x50 ∨ b = 0x52) → Executing s b p →
    (4 ≤ p.pSlot.toNat → exec .completion s = .next (s.withEngine (endedNow s.engine .badNumber))) ∧
    ∀ n : TrigNo, p.pSlot.toNat = n.val →
      (b = 0x50 → ∃ (e : EdgeSelect) (w : Half),
        exec .completion s = .next ((s.withEngine (endedNow s.engine .none)).setTrig n
          { s.trig n with select := e, reportUnclaimed := p.option.getLsbD 2, lockLength := w }) ∧
        ((p.option.extractLsb' 0 2).toNat = 0 → e = .none) ∧
        ((p.option.extractLsb' 0 2).toNat = 1 → e = .rising) ∧
        ((p.option.extractLsb' 0 2).toNat = 2 → e = .falling) ∧
        ((p.option.extractLsb' 0 2).toNat = 3 → e = .both) ∧
        w.toNat = p.value0.toNat + 2 ^ 8 * p.value1.toNat) ∧
      (b = 0x52 → ∃ (c h : Byte),
        exec .completion s = .next ((s.withEngine
          { endedNow s.engine .none with
            params :=
              { s.engine.params with
                count := c, value0 := (s.trig n).bounce, value1 := h, value2 := 0, value3 := 0 } }).setTrig n
          { s.trig n with bounce := 0 }) ∧
        ((s.list (.wait n)).length < 256 → c.toNat = (s.list (.wait n)).length) ∧
        (s.list (.wait n) = [] → h = 0xFF) ∧ ∀ x ∈ (s.list (.wait n)).head?, h.toNat = x.val)

/-- At its completion event FLUSH TRIGGER disarms every slot of the wait list: the list is empty, each slot is HELD, each line
that one of them owns with no pulse pending is released, and CANCELLED with the trigger number in aux is posted for each
whose report enable is set, in list order, the outcome NONE; a number above 3 ends BAD_NUMBER (R164, R111, R66). -/
def Obligations.FlushTrigger : Prop :=
  ∀ (s : State) (p : Params), Executing s 0x51 p →
    (4 ≤ p.pSlot.toNat → exec .completion s = .next (s.withEngine (endedNow s.engine .badNumber))) ∧
    ∀ n : TrigNo, p.pSlot.toNat = n.val → (s.list (.wait n)).Nodup →
      ∃ u, exec .completion s = .next u ∧
        u = ((((s.withEngine (endedNow s.engine .none)).withSlots u.slots).withSched u.sched).withLines
          u.lines).withReports u.reports ∧
        u.list (.wait n) = [] ∧ (∀ r, r ≠ .wait n → u.list r = s.list r) ∧
        (∀ x, u.slot x = if x ∈ s.list (.wait n) then { s.slot x with run := heldRun } else s.slot x) ∧
        (∀ l, ((∃ x ∈ s.list (.wait n), (s.slot x).config.action ≠ .none ∧ (s.slot x).config.line = l ∧
            (s.line l).owner = some x) ∧ (s.line l).countdown = 0 → u.line l = { s.line l with owner := none }) ∧
          (¬ ((∃ x ∈ s.list (.wait n), (s.slot x).config.action ≠ .none ∧ (s.slot x).config.line = l ∧
            (s.line l).owner = some x) ∧ (s.line l).countdown = 0) → u.line l = s.line l)) ∧
        u.reports =
          (disarmReports s (s.list (.wait n)) .cancelled (.trigger n)).foldl ReportQueue.append s.reports

/-! ## The blocks of a transfer -/

/-- A block preparation of READ REPORTS takes as length the least of B, REMAIN and the level, one of READ DUE LIST the least
of B, REMAIN and the undelivered entries of the snapshot: a length of 0 completes the command with NONE, any other opens
the block with copies of the leading entries, the queue as it was. The opening of ARM BATCH opens an empty block of the
lesser of B and REMAIN (R137, R123, R139). -/
def Obligations.BlockPreparationAndOpening : Prop :=
  ∀ (s : State) (p : Params), s.resetHeld = false → s.engine.phase = .engine →
    (∀ k, InProgress s 0x20 p → 1 ≤ p.count.toNat → p.count.toNat ≤ 64 →
      k = min s.engine.blockSize (min s.engine.remain.toNat s.reports.entries.length) →
      (k = 0 → exec .blockPreparation s = .next (s.withEngine (endedNow s.engine .none))) ∧
      (k ≠ 0 → exec .blockPreparation s =
        .next (s.withEngine (opened s.engine k (.reports (s.reports.entries.take k)))))) ∧
    (∀ k, InProgress s 0x22 p → NamesOne p.option → 1 ≤ p.count.toNat → p.count.toNat ≤ 128 →
      k = min s.engine.blockSize (min s.engine.remain.toNat (s.engine.snapshot.length - s.engine.delivered)) →
      (k = 0 → exec .blockPreparation s = .next (s.withEngine (endedNow s.engine .none))) ∧
      (k ≠ 0 → exec .blockPreparation s = .next (s.withEngine
        (opened s.engine k (.dues ((s.engine.snapshot.drop s.engine.delivered).take k)))))) ∧
    (InProgress s 0x14 p → 1 ≤ p.count.toNat → p.count.toNat ≤ 64 → s.engine.blockLength = 0 →
      exec .blockOpening s =
        .next (s.withEngine (opened s.engine (min s.engine.blockSize s.engine.remain.toNat) (.slots []))))

/-- A block processing of ARM BATCH takes the block's bytes in order, each a number above 127, which fails BAD_NUMBER, or an
arm attempt of its own on the state standing at its turn, in the latched mode: refused, inserted, fired at once or
dropped. A success lowers REMAIN by one. The first failure ends the command in the event with its code, P-SLOT takes its
byte, and the bytes behind it are discarded; where all succeed the command completes with NONE if REMAIN is then 0, and
otherwise the next block of the lesser of B and REMAIN is opened, in the same event (R140, R152, R139, R136). No block is
longer than REMAIN, which every step keeps (EveryStepKeepsHandshake). -/
def Obligations.BlockProcessing : Prop :=
  ∀ (s : State) (p : Params) (bs : List Byte), Executing s 0x14 p → 1 ≤ p.count.toNat → p.count.toNat ≤ 64 →
    s.engine.blockLength ≠ 0 → s.engine.buffer = .slots bs → bs.length ≤ s.engine.remain.toNat →
    ∃ m t failed, exec .blockProcessing s = .next t ∧ EntriesTaken p.option bs s m failed ∧
      (∀ err b, failed = some (err, b) →
        t = m.withEngine { endedNow m.engine err with params := { m.engine.params with pSlot := b } }) ∧
      (failed = none → m.engine.remain = 0 → t = m.withEngine (endedNow m.engine .none)) ∧
      (failed = none → m.engine.remain ≠ 0 →
        t = m.withEngine (opened m.engine (min m.engine.blockSize m.engine.remain.toNat) (.slots [])))

/-! ## Due points, the queue, the write image -/

/-- The due-point test and the remaining distance: a due point is not reached exactly when its distance is 1 to 2^31, has
distance 0 exactly when it is the counter, and more than 2^31 when it is past; an advance lowers the distance of a due
point not reached by one. -/
def Obligations.DuePointTestAndDistance : Prop :=
  ∀ c d : Word,
    (reached c d = false ↔ 1 ≤ distance c d ∧ distance c d ≤ 2 ^ 31) ∧
    (distance c d = 0 ↔ d = c) ∧
    (reached c d = true ∧ d ≠ c ↔ 2 ^ 31 < distance c d) ∧
    (reached c d = false → distance (c + 1) d + 1 = distance c d)

/-- A report handed to the queue below 32 entries is appended at the tail with the lost count, which returns to 0; at 32 it
is discarded and the lost count rises by one, staying at 255; nothing else changes. -/
def Obligations.ReportIsAppendedOrCounted : Prop :=
  ∀ (s : State) (r : Report),
    (s.reports.entries.length ≤ 31 →
      s.post r = s.withReports
        { s.reports with entries := s.reports.entries ++ [{ r with lost := s.reports.lost }], lost := 0 } ∧
      (s.post r).level = s.level + 1) ∧
    (s.reports.entries.length = 32 →
      s.post r = s.withReports
        { s.reports with lost := if s.reports.lost = 255 then 255 else s.reports.lost + 1 } ∧
      (s.post r).qfull = true)

/-- The write image and the format checks agree: every configuration that a commit can store has an image in the layout of
Tables 12-4 and 12-5; every such image, the unassigned bit of the mode byte either way, passes the checks of Table 3-3
and is read back as that configuration; and an image that fails a check is read as none. -/
def Obligations.WriteImageRoundTrip : Prop :=
  (∀ c : SlotConfig, Spells (configImage c) c ∧ ((configImage c).getD 1 0).getLsbD 7 = false) ∧
  (∀ (c : SlotConfig) (img : List Byte), FormatOk c → Spells img c →
    ¬ BadFormat img ∧ imageConfig img = some c) ∧
  ∀ img : List Byte, BadFormat img → imageConfig img = none

/-! ## Invariants -/

/-- Every step keeps the report queue at 32 entries or fewer and its watermark in 1 to 32 (R120, R179), and every step keeps
the record port within Table 3-1. -/
def Obligations.EveryStepKeepsQueueAndRecordPort : Prop :=
  (∀ s t : State, QueueWf s.reports → step s = .next t → QueueWf t.reports) ∧
  ∀ s t : State, RecordWf s.record → step s = .next t → RecordWf t.record

/-- Every step keeps the handshake of the command engine: the phases, the error latch and REMAIN of sections 9.3 and 9.4, and
what the open block of each transfer command holds (R131, R132, R136, R123, R139). -/
def Obligations.EveryStepKeepsHandshake : Prop :=
  ∀ s t : State, HandshakeWf s → step s = .next t → HandshakeWf t

/-- Every step keeps the laws of the scheduler and the line unit: the slot records, the membership and order of the six
lists, line ownership, the pulse law and the stop law (R49 to R51, R87, R89, R172). -/
def Obligations.EveryStepKeepsSchedule : Prop :=
  ∀ s t : State, ScheduleWf s → step s = .next t → ScheduleWf t

/-- The state after reset is safe: every law above holds in it. -/
def Obligations.ResetIsSafe : Prop := Safe State.reset
end

