-- ==== Sys2Proof/Laws/State.lean ====
section
/-! SUPPORT. One lemma for each field of the state under each update, true by computation, so that no proof unfolds a
record update; and the two laws of an update with itself. -/

namespace Sys2Proof.Machine.State

/-! ## withPending -/

section

variable (s : State) (v : List Instr)

@[simp] theorem pending_withPending : (s.withPending v).pending = v := rfl
@[simp] theorem resetHeld_withPending : (s.withPending v).resetHeld = s.resetHeld := rfl
@[simp] theorem readData_withPending : (s.withPending v).readData = s.readData := rfl
@[simp] theorem timebase_withPending : (s.withPending v).timebase = s.timebase := rfl
@[simp] theorem slots_withPending : (s.withPending v).slots = s.slots := rfl
@[simp] theorem sched_withPending : (s.withPending v).sched = s.sched := rfl
@[simp] theorem lines_withPending : (s.withPending v).lines = s.lines := rfl
@[simp] theorem trigs_withPending : (s.withPending v).trigs = s.trigs := rfl
@[simp] theorem reports_withPending : (s.withPending v).reports = s.reports := rfl
@[simp] theorem record_withPending : (s.withPending v).record = s.record := rfl
@[simp] theorem engine_withPending : (s.withPending v).engine = s.engine := rfl
@[simp] theorem intEnable_withPending : (s.withPending v).intEnable = s.intEnable := rfl
@[simp] theorem stop_withPending : (s.withPending v).stop = s.stop := rfl
@[simp] theorem freeIndex_withPending : (s.withPending v).freeIndex = s.freeIndex := rfl

/-- A later update of the same field wins. -/
@[simp] theorem withPending_twice (w : List Instr) : (s.withPending v).withPending w = s.withPending w := rfl

/-- Writing a field's own value changes nothing. -/
@[simp] theorem withPending_self : s.withPending s.pending = s := rfl

end

/-! ## withResetHeld -/

section

variable (s : State) (v : Bool)

@[simp] theorem pending_withResetHeld : (s.withResetHeld v).pending = s.pending := rfl
@[simp] theorem resetHeld_withResetHeld : (s.withResetHeld v).resetHeld = v := rfl
@[simp] theorem readData_withResetHeld : (s.withResetHeld v).readData = s.readData := rfl
@[simp] theorem timebase_withResetHeld : (s.withResetHeld v).timebase = s.timebase := rfl
@[simp] theorem slots_withResetHeld : (s.withResetHeld v).slots = s.slots := rfl
@[simp] theorem sched_withResetHeld : (s.withResetHeld v).sched = s.sched := rfl
@[simp] theorem lines_withResetHeld : (s.withResetHeld v).lines = s.lines := rfl
@[simp] theorem trigs_withResetHeld : (s.withResetHeld v).trigs = s.trigs := rfl
@[simp] theorem reports_withResetHeld : (s.withResetHeld v).reports = s.reports := rfl
@[simp] theorem record_withResetHeld : (s.withResetHeld v).record = s.record := rfl
@[simp] theorem engine_withResetHeld : (s.withResetHeld v).engine = s.engine := rfl
@[simp] theorem intEnable_withResetHeld : (s.withResetHeld v).intEnable = s.intEnable := rfl
@[simp] theorem stop_withResetHeld : (s.withResetHeld v).stop = s.stop := rfl
@[simp] theorem freeIndex_withResetHeld : (s.withResetHeld v).freeIndex = s.freeIndex := rfl

/-- A later update of the same field wins. -/
@[simp] theorem withResetHeld_twice (w : Bool) : (s.withResetHeld v).withResetHeld w = s.withResetHeld w := rfl

/-- Writing a field's own value changes nothing. -/
@[simp] theorem withResetHeld_self : s.withResetHeld s.resetHeld = s := rfl

end

/-! ## withReadData -/

section

variable (s : State) (v : Option Byte)

@[simp] theorem pending_withReadData : (s.withReadData v).pending = s.pending := rfl
@[simp] theorem resetHeld_withReadData : (s.withReadData v).resetHeld = s.resetHeld := rfl
@[simp] theorem readData_withReadData : (s.withReadData v).readData = v := rfl
@[simp] theorem timebase_withReadData : (s.withReadData v).timebase = s.timebase := rfl
@[simp] theorem slots_withReadData : (s.withReadData v).slots = s.slots := rfl
@[simp] theorem sched_withReadData : (s.withReadData v).sched = s.sched := rfl
@[simp] theorem lines_withReadData : (s.withReadData v).lines = s.lines := rfl
@[simp] theorem trigs_withReadData : (s.withReadData v).trigs = s.trigs := rfl
@[simp] theorem reports_withReadData : (s.withReadData v).reports = s.reports := rfl
@[simp] theorem record_withReadData : (s.withReadData v).record = s.record := rfl
@[simp] theorem engine_withReadData : (s.withReadData v).engine = s.engine := rfl
@[simp] theorem intEnable_withReadData : (s.withReadData v).intEnable = s.intEnable := rfl
@[simp] theorem stop_withReadData : (s.withReadData v).stop = s.stop := rfl
@[simp] theorem freeIndex_withReadData : (s.withReadData v).freeIndex = s.freeIndex := rfl

/-- A later update of the same field wins. -/
@[simp] theorem withReadData_twice (w : Option Byte) : (s.withReadData v).withReadData w = s.withReadData w := rfl

/-- Writing a field's own value changes nothing. -/
@[simp] theorem withReadData_self : s.withReadData s.readData = s := rfl

end

/-! ## withTimebase -/

section

variable (s : State) (v : TimebaseUnit)

@[simp] theorem pending_withTimebase : (s.withTimebase v).pending = s.pending := rfl
@[simp] theorem resetHeld_withTimebase : (s.withTimebase v).resetHeld = s.resetHeld := rfl
@[simp] theorem readData_withTimebase : (s.withTimebase v).readData = s.readData := rfl
@[simp] theorem timebase_withTimebase : (s.withTimebase v).timebase = v := rfl
@[simp] theorem slots_withTimebase : (s.withTimebase v).slots = s.slots := rfl
@[simp] theorem sched_withTimebase : (s.withTimebase v).sched = s.sched := rfl
@[simp] theorem lines_withTimebase : (s.withTimebase v).lines = s.lines := rfl
@[simp] theorem trigs_withTimebase : (s.withTimebase v).trigs = s.trigs := rfl
@[simp] theorem reports_withTimebase : (s.withTimebase v).reports = s.reports := rfl
@[simp] theorem record_withTimebase : (s.withTimebase v).record = s.record := rfl
@[simp] theorem engine_withTimebase : (s.withTimebase v).engine = s.engine := rfl
@[simp] theorem intEnable_withTimebase : (s.withTimebase v).intEnable = s.intEnable := rfl
@[simp] theorem stop_withTimebase : (s.withTimebase v).stop = s.stop := rfl
@[simp] theorem freeIndex_withTimebase : (s.withTimebase v).freeIndex = s.freeIndex := rfl

/-- A later update of the same field wins. -/
@[simp] theorem withTimebase_twice (w : TimebaseUnit) : (s.withTimebase v).withTimebase w = s.withTimebase w := rfl

/-- Writing a field's own value changes nothing. -/
@[simp] theorem withTimebase_self : s.withTimebase s.timebase = s := rfl

end

/-! ## withSlots -/

section

variable (s : State) (v : Vector Slot 128)

@[simp] theorem pending_withSlots : (s.withSlots v).pending = s.pending := rfl
@[simp] theorem resetHeld_withSlots : (s.withSlots v).resetHeld = s.resetHeld := rfl
@[simp] theorem readData_withSlots : (s.withSlots v).readData = s.readData := rfl
@[simp] theorem timebase_withSlots : (s.withSlots v).timebase = s.timebase := rfl
@[simp] theorem slots_withSlots : (s.withSlots v).slots = v := rfl
@[simp] theorem sched_withSlots : (s.withSlots v).sched = s.sched := rfl
@[simp] theorem lines_withSlots : (s.withSlots v).lines = s.lines := rfl
@[simp] theorem trigs_withSlots : (s.withSlots v).trigs = s.trigs := rfl
@[simp] theorem reports_withSlots : (s.withSlots v).reports = s.reports := rfl
@[simp] theorem record_withSlots : (s.withSlots v).record = s.record := rfl
@[simp] theorem engine_withSlots : (s.withSlots v).engine = s.engine := rfl
@[simp] theorem intEnable_withSlots : (s.withSlots v).intEnable = s.intEnable := rfl
@[simp] theorem stop_withSlots : (s.withSlots v).stop = s.stop := rfl
@[simp] theorem freeIndex_withSlots : (s.withSlots v).freeIndex = s.freeIndex := rfl

/-- A later update of the same field wins. -/
@[simp] theorem withSlots_twice (w : Vector Slot 128) : (s.withSlots v).withSlots w = s.withSlots w := rfl

/-- Writing a field's own value changes nothing. -/
@[simp] theorem withSlots_self : s.withSlots s.slots = s := rfl

end

/-! ## withSched -/

section

variable (s : State) (v : Scheduler)

@[simp] theorem pending_withSched : (s.withSched v).pending = s.pending := rfl
@[simp] theorem resetHeld_withSched : (s.withSched v).resetHeld = s.resetHeld := rfl
@[simp] theorem readData_withSched : (s.withSched v).readData = s.readData := rfl
@[simp] theorem timebase_withSched : (s.withSched v).timebase = s.timebase := rfl
@[simp] theorem slots_withSched : (s.withSched v).slots = s.slots := rfl
@[simp] theorem sched_withSched : (s.withSched v).sched = v := rfl
@[simp] theorem lines_withSched : (s.withSched v).lines = s.lines := rfl
@[simp] theorem trigs_withSched : (s.withSched v).trigs = s.trigs := rfl
@[simp] theorem reports_withSched : (s.withSched v).reports = s.reports := rfl
@[simp] theorem record_withSched : (s.withSched v).record = s.record := rfl
@[simp] theorem engine_withSched : (s.withSched v).engine = s.engine := rfl
@[simp] theorem intEnable_withSched : (s.withSched v).intEnable = s.intEnable := rfl
@[simp] theorem stop_withSched : (s.withSched v).stop = s.stop := rfl
@[simp] theorem freeIndex_withSched : (s.withSched v).freeIndex = s.freeIndex := rfl

/-- A later update of the same field wins. -/
@[simp] theorem withSched_twice (w : Scheduler) : (s.withSched v).withSched w = s.withSched w := rfl

/-- Writing a field's own value changes nothing. -/
@[simp] theorem withSched_self : s.withSched s.sched = s := rfl

end

/-! ## withLines -/

section

variable (s : State) (v : Vector Line 16)

@[simp] theorem pending_withLines : (s.withLines v).pending = s.pending := rfl
@[simp] theorem resetHeld_withLines : (s.withLines v).resetHeld = s.resetHeld := rfl
@[simp] theorem readData_withLines : (s.withLines v).readData = s.readData := rfl
@[simp] theorem timebase_withLines : (s.withLines v).timebase = s.timebase := rfl
@[simp] theorem slots_withLines : (s.withLines v).slots = s.slots := rfl
@[simp] theorem sched_withLines : (s.withLines v).sched = s.sched := rfl
@[simp] theorem lines_withLines : (s.withLines v).lines = v := rfl
@[simp] theorem trigs_withLines : (s.withLines v).trigs = s.trigs := rfl
@[simp] theorem reports_withLines : (s.withLines v).reports = s.reports := rfl
@[simp] theorem record_withLines : (s.withLines v).record = s.record := rfl
@[simp] theorem engine_withLines : (s.withLines v).engine = s.engine := rfl
@[simp] theorem intEnable_withLines : (s.withLines v).intEnable = s.intEnable := rfl
@[simp] theorem stop_withLines : (s.withLines v).stop = s.stop := rfl
@[simp] theorem freeIndex_withLines : (s.withLines v).freeIndex = s.freeIndex := rfl

/-- A later update of the same field wins. -/
@[simp] theorem withLines_twice (w : Vector Line 16) : (s.withLines v).withLines w = s.withLines w := rfl

/-- Writing a field's own value changes nothing. -/
@[simp] theorem withLines_self : s.withLines s.lines = s := rfl

end

/-! ## withTrigs -/

section

variable (s : State) (v : Vector Channel 4)

@[simp] theorem pending_withTrigs : (s.withTrigs v).pending = s.pending := rfl
@[simp] theorem resetHeld_withTrigs : (s.withTrigs v).resetHeld = s.resetHeld := rfl
@[simp] theorem readData_withTrigs : (s.withTrigs v).readData = s.readData := rfl
@[simp] theorem timebase_withTrigs : (s.withTrigs v).timebase = s.timebase := rfl
@[simp] theorem slots_withTrigs : (s.withTrigs v).slots = s.slots := rfl
@[simp] theorem sched_withTrigs : (s.withTrigs v).sched = s.sched := rfl
@[simp] theorem lines_withTrigs : (s.withTrigs v).lines = s.lines := rfl
@[simp] theorem trigs_withTrigs : (s.withTrigs v).trigs = v := rfl
@[simp] theorem reports_withTrigs : (s.withTrigs v).reports = s.reports := rfl
@[simp] theorem record_withTrigs : (s.withTrigs v).record = s.record := rfl
@[simp] theorem engine_withTrigs : (s.withTrigs v).engine = s.engine := rfl
@[simp] theorem intEnable_withTrigs : (s.withTrigs v).intEnable = s.intEnable := rfl
@[simp] theorem stop_withTrigs : (s.withTrigs v).stop = s.stop := rfl
@[simp] theorem freeIndex_withTrigs : (s.withTrigs v).freeIndex = s.freeIndex := rfl

/-- A later update of the same field wins. -/
@[simp] theorem withTrigs_twice (w : Vector Channel 4) : (s.withTrigs v).withTrigs w = s.withTrigs w := rfl

/-- Writing a field's own value changes nothing. -/
@[simp] theorem withTrigs_self : s.withTrigs s.trigs = s := rfl

end

/-! ## withReports -/

section

variable (s : State) (v : ReportQueue)

@[simp] theorem pending_withReports : (s.withReports v).pending = s.pending := rfl
@[simp] theorem resetHeld_withReports : (s.withReports v).resetHeld = s.resetHeld := rfl
@[simp] theorem readData_withReports : (s.withReports v).readData = s.readData := rfl
@[simp] theorem timebase_withReports : (s.withReports v).timebase = s.timebase := rfl
@[simp] theorem slots_withReports : (s.withReports v).slots = s.slots := rfl
@[simp] theorem sched_withReports : (s.withReports v).sched = s.sched := rfl
@[simp] theorem lines_withReports : (s.withReports v).lines = s.lines := rfl
@[simp] theorem trigs_withReports : (s.withReports v).trigs = s.trigs := rfl
@[simp] theorem reports_withReports : (s.withReports v).reports = v := rfl
@[simp] theorem record_withReports : (s.withReports v).record = s.record := rfl
@[simp] theorem engine_withReports : (s.withReports v).engine = s.engine := rfl
@[simp] theorem intEnable_withReports : (s.withReports v).intEnable = s.intEnable := rfl
@[simp] theorem stop_withReports : (s.withReports v).stop = s.stop := rfl
@[simp] theorem freeIndex_withReports : (s.withReports v).freeIndex = s.freeIndex := rfl

/-- A later update of the same field wins. -/
@[simp] theorem withReports_twice (w : ReportQueue) : (s.withReports v).withReports w = s.withReports w := rfl

/-- Writing a field's own value changes nothing. -/
@[simp] theorem withReports_self : s.withReports s.reports = s := rfl

end

/-! ## withRecord -/

section

variable (s : State) (v : RecordPort)

@[simp] theorem pending_withRecord : (s.withRecord v).pending = s.pending := rfl
@[simp] theorem resetHeld_withRecord : (s.withRecord v).resetHeld = s.resetHeld := rfl
@[simp] theorem readData_withRecord : (s.withRecord v).readData = s.readData := rfl
@[simp] theorem timebase_withRecord : (s.withRecord v).timebase = s.timebase := rfl
@[simp] theorem slots_withRecord : (s.withRecord v).slots = s.slots := rfl
@[simp] theorem sched_withRecord : (s.withRecord v).sched = s.sched := rfl
@[simp] theorem lines_withRecord : (s.withRecord v).lines = s.lines := rfl
@[simp] theorem trigs_withRecord : (s.withRecord v).trigs = s.trigs := rfl
@[simp] theorem reports_withRecord : (s.withRecord v).reports = s.reports := rfl
@[simp] theorem record_withRecord : (s.withRecord v).record = v := rfl
@[simp] theorem engine_withRecord : (s.withRecord v).engine = s.engine := rfl
@[simp] theorem intEnable_withRecord : (s.withRecord v).intEnable = s.intEnable := rfl
@[simp] theorem stop_withRecord : (s.withRecord v).stop = s.stop := rfl
@[simp] theorem freeIndex_withRecord : (s.withRecord v).freeIndex = s.freeIndex := rfl

/-- A later update of the same field wins. -/
@[simp] theorem withRecord_twice (w : RecordPort) : (s.withRecord v).withRecord w = s.withRecord w := rfl

/-- Writing a field's own value changes nothing. -/
@[simp] theorem withRecord_self : s.withRecord s.record = s := rfl

end

/-! ## withEngine -/

section

variable (s : State) (v : Engine)

@[simp] theorem pending_withEngine : (s.withEngine v).pending = s.pending := rfl
@[simp] theorem resetHeld_withEngine : (s.withEngine v).resetHeld = s.resetHeld := rfl
@[simp] theorem readData_withEngine : (s.withEngine v).readData = s.readData := rfl
@[simp] theorem timebase_withEngine : (s.withEngine v).timebase = s.timebase := rfl
@[simp] theorem slots_withEngine : (s.withEngine v).slots = s.slots := rfl
@[simp] theorem sched_withEngine : (s.withEngine v).sched = s.sched := rfl
@[simp] theorem lines_withEngine : (s.withEngine v).lines = s.lines := rfl
@[simp] theorem trigs_withEngine : (s.withEngine v).trigs = s.trigs := rfl
@[simp] theorem reports_withEngine : (s.withEngine v).reports = s.reports := rfl
@[simp] theorem record_withEngine : (s.withEngine v).record = s.record := rfl
@[simp] theorem engine_withEngine : (s.withEngine v).engine = v := rfl
@[simp] theorem intEnable_withEngine : (s.withEngine v).intEnable = s.intEnable := rfl
@[simp] theorem stop_withEngine : (s.withEngine v).stop = s.stop := rfl
@[simp] theorem freeIndex_withEngine : (s.withEngine v).freeIndex = s.freeIndex := rfl

/-- A later update of the same field wins. -/
@[simp] theorem withEngine_twice (w : Engine) : (s.withEngine v).withEngine w = s.withEngine w := rfl

/-- Writing a field's own value changes nothing. -/
@[simp] theorem withEngine_self : s.withEngine s.engine = s := rfl

end

/-! ## withIntEnable -/

section

variable (s : State) (v : IntEnable)

@[simp] theorem pending_withIntEnable : (s.withIntEnable v).pending = s.pending := rfl
@[simp] theorem resetHeld_withIntEnable : (s.withIntEnable v).resetHeld = s.resetHeld := rfl
@[simp] theorem readData_withIntEnable : (s.withIntEnable v).readData = s.readData := rfl
@[simp] theorem timebase_withIntEnable : (s.withIntEnable v).timebase = s.timebase := rfl
@[simp] theorem slots_withIntEnable : (s.withIntEnable v).slots = s.slots := rfl
@[simp] theorem sched_withIntEnable : (s.withIntEnable v).sched = s.sched := rfl
@[simp] theorem lines_withIntEnable : (s.withIntEnable v).lines = s.lines := rfl
@[simp] theorem trigs_withIntEnable : (s.withIntEnable v).trigs = s.trigs := rfl
@[simp] theorem reports_withIntEnable : (s.withIntEnable v).reports = s.reports := rfl
@[simp] theorem record_withIntEnable : (s.withIntEnable v).record = s.record := rfl
@[simp] theorem engine_withIntEnable : (s.withIntEnable v).engine = s.engine := rfl
@[simp] theorem intEnable_withIntEnable : (s.withIntEnable v).intEnable = v := rfl
@[simp] theorem stop_withIntEnable : (s.withIntEnable v).stop = s.stop := rfl
@[simp] theorem freeIndex_withIntEnable : (s.withIntEnable v).freeIndex = s.freeIndex := rfl

/-- A later update of the same field wins. -/
@[simp] theorem withIntEnable_twice (w : IntEnable) : (s.withIntEnable v).withIntEnable w = s.withIntEnable w := rfl

/-- Writing a field's own value changes nothing. -/
@[simp] theorem withIntEnable_self : s.withIntEnable s.intEnable = s := rfl

end

/-! ## withStop -/

section

variable (s : State) (v : StopMonitor)

@[simp] theorem pending_withStop : (s.withStop v).pending = s.pending := rfl
@[simp] theorem resetHeld_withStop : (s.withStop v).resetHeld = s.resetHeld := rfl
@[simp] theorem readData_withStop : (s.withStop v).readData = s.readData := rfl
@[simp] theorem timebase_withStop : (s.withStop v).timebase = s.timebase := rfl
@[simp] theorem slots_withStop : (s.withStop v).slots = s.slots := rfl
@[simp] theorem sched_withStop : (s.withStop v).sched = s.sched := rfl
@[simp] theorem lines_withStop : (s.withStop v).lines = s.lines := rfl
@[simp] theorem trigs_withStop : (s.withStop v).trigs = s.trigs := rfl
@[simp] theorem reports_withStop : (s.withStop v).reports = s.reports := rfl
@[simp] theorem record_withStop : (s.withStop v).record = s.record := rfl
@[simp] theorem engine_withStop : (s.withStop v).engine = s.engine := rfl
@[simp] theorem intEnable_withStop : (s.withStop v).intEnable = s.intEnable := rfl
@[simp] theorem stop_withStop : (s.withStop v).stop = v := rfl
@[simp] theorem freeIndex_withStop : (s.withStop v).freeIndex = s.freeIndex := rfl

/-- A later update of the same field wins. -/
@[simp] theorem withStop_twice (w : StopMonitor) : (s.withStop v).withStop w = s.withStop w := rfl

/-- Writing a field's own value changes nothing. -/
@[simp] theorem withStop_self : s.withStop s.stop = s := rfl

end

/-! ## withFreeIndex -/

section

variable (s : State) (v : Nat)

@[simp] theorem pending_withFreeIndex : (s.withFreeIndex v).pending = s.pending := rfl
@[simp] theorem resetHeld_withFreeIndex : (s.withFreeIndex v).resetHeld = s.resetHeld := rfl
@[simp] theorem readData_withFreeIndex : (s.withFreeIndex v).readData = s.readData := rfl
@[simp] theorem timebase_withFreeIndex : (s.withFreeIndex v).timebase = s.timebase := rfl
@[simp] theorem slots_withFreeIndex : (s.withFreeIndex v).slots = s.slots := rfl
@[simp] theorem sched_withFreeIndex : (s.withFreeIndex v).sched = s.sched := rfl
@[simp] theorem lines_withFreeIndex : (s.withFreeIndex v).lines = s.lines := rfl
@[simp] theorem trigs_withFreeIndex : (s.withFreeIndex v).trigs = s.trigs := rfl
@[simp] theorem reports_withFreeIndex : (s.withFreeIndex v).reports = s.reports := rfl
@[simp] theorem record_withFreeIndex : (s.withFreeIndex v).record = s.record := rfl
@[simp] theorem engine_withFreeIndex : (s.withFreeIndex v).engine = s.engine := rfl
@[simp] theorem intEnable_withFreeIndex : (s.withFreeIndex v).intEnable = s.intEnable := rfl
@[simp] theorem stop_withFreeIndex : (s.withFreeIndex v).stop = s.stop := rfl
@[simp] theorem freeIndex_withFreeIndex : (s.withFreeIndex v).freeIndex = v := rfl

/-- A later update of the same field wins. -/
@[simp] theorem withFreeIndex_twice (w : Nat) : (s.withFreeIndex v).withFreeIndex w = s.withFreeIndex w := rfl

/-- Writing a field's own value changes nothing. -/
@[simp] theorem withFreeIndex_self : s.withFreeIndex s.freeIndex = s := rfl

end

end Sys2Proof.Machine.State
end

