-- ==== Sys2Proof/Laws/Banks.lean ====
section
/-! SUPPORT. The banks of records: what a read of one record gives after each update of a bank, for slots, lines, trigger
channels, counters and lists. -/

namespace Sys2Proof.Machine

/-- The record of a bank after `bankMap` (Machine/Ops.lean): the function of its number and its old record. -/
@[simp] theorem bankMap_get {α β : Type} {n : Nat} (f : Fin n → α → β) (v : Vector α n) (i : Fin n) :
    (bankMap f v)[i] = f i v[i] := by
  simp [bankMap]

namespace State

variable (s : State)

/-! ## Slots -/

@[simp] theorem slot_setSlot (x : SlotNo) (v : Slot) : (s.setSlot x v).slot x = v := by
  simp [slot, setSlot]

@[simp] theorem slot_setSlot_ne {x y : SlotNo} (v : Slot) (h : y ≠ x) : (s.setSlot x v).slot y = s.slot y := by
  have : (x : Nat) ≠ y := fun e => h (Fin.ext e.symm)
  simp [slot, setSlot, Vector.getElem_set_ne, this]

theorem slot_setSlot_if (x y : SlotNo) (v : Slot) : (s.setSlot x v).slot y = if y = x then v else s.slot y := by
  split
  · next h => subst h; simp
  · next h => simp [h]

@[simp] theorem slot_setRun (x : SlotNo) (r : RunPart) : (s.setRun x r).slot x = { s.slot x with run := r } := by
  simp [setRun]

@[simp] theorem slot_setRun_ne {x y : SlotNo} (r : RunPart) (h : y ≠ x) : (s.setRun x r).slot y = s.slot y := by
  simp [setRun, h]

/-- Replacing a run part changes no configuration. -/
@[simp] theorem config_setRun (x y : SlotNo) (r : RunPart) : ((s.setRun x r).slot y).config = (s.slot y).config := by
  by_cases h : y = x
  · subst h; simp
  · simp [h]

/-- Two states with one slot table have the same records. -/
theorem slot_congr {s t : State} (h : t.slots = s.slots) (x : SlotNo) : t.slot x = s.slot x := by
  simp [slot, h]

/-! ## Lines -/

@[simp] theorem line_setLine (l : LineNo) (v : Line) : (s.setLine l v).line l = v := by
  simp [line, setLine]

@[simp] theorem line_setLine_ne {l m : LineNo} (v : Line) (h : m ≠ l) : (s.setLine l v).line m = s.line m := by
  have : (l : Nat) ≠ m := fun e => h (Fin.ext e.symm)
  simp [line, setLine, Vector.getElem_set_ne, this]

theorem line_setLine_if (l m : LineNo) (v : Line) : (s.setLine l v).line m = if m = l then v else s.line m := by
  split
  · next h => subst h; simp
  · next h => simp [h]

/-- Two states with one bank of lines have the same records. -/
theorem line_congr {s t : State} (h : t.lines = s.lines) (l : LineNo) : t.line l = s.line l := by
  simp [line, h]

/-! ## Trigger channels -/

@[simp] theorem trig_setTrig (t : TrigNo) (v : Channel) : (s.setTrig t v).trig t = v := by
  simp [trig, setTrig]

@[simp] theorem trig_setTrig_ne {t u : TrigNo} (v : Channel) (h : u ≠ t) : (s.setTrig t v).trig u = s.trig u := by
  have : (t : Nat) ≠ u := fun e => h (Fin.ext e.symm)
  simp [trig, setTrig, Vector.getElem_set_ne, this]

/-! ## Updates of one record under the reads of another kind -/

/-- A later write of the same channel wins. -/
@[simp] theorem setTrig_twice (t : TrigNo) (v w : Channel) : (s.setTrig t v).setTrig t w = s.setTrig t w := by
  simp [setTrig]

@[simp] theorem slot_setLine (l : LineNo) (v : Line) (x : SlotNo) : (s.setLine l v).slot x = s.slot x := rfl
@[simp] theorem slot_setTrig (t : TrigNo) (v : Channel) (x : SlotNo) : (s.setTrig t v).slot x = s.slot x := rfl
@[simp] theorem slot_setList (r : ListRef) (v : List SlotNo) (x : SlotNo) : (s.setList r v).slot x = s.slot x := rfl
@[simp] theorem slot_post (r : Report) (x : SlotNo) : (s.post r).slot x = s.slot x := rfl
@[simp] theorem line_setSlot (x : SlotNo) (v : Slot) (l : LineNo) : (s.setSlot x v).line l = s.line l := rfl
@[simp] theorem line_setRun (x : SlotNo) (v : RunPart) (l : LineNo) : (s.setRun x v).line l = s.line l := rfl
@[simp] theorem line_setTrig (t : TrigNo) (v : Channel) (l : LineNo) : (s.setTrig t v).line l = s.line l := rfl
@[simp] theorem line_setList (r : ListRef) (v : List SlotNo) (l : LineNo) : (s.setList r v).line l = s.line l := rfl
@[simp] theorem line_post (r : Report) (l : LineNo) : (s.post r).line l = s.line l := rfl
@[simp] theorem list_setSlot (x : SlotNo) (v : Slot) (r : ListRef) : (s.setSlot x v).list r = s.list r := rfl
@[simp] theorem list_setRun (x : SlotNo) (v : RunPart) (r : ListRef) : (s.setRun x v).list r = s.list r := rfl
@[simp] theorem list_setLine (l : LineNo) (v : Line) (r : ListRef) : (s.setLine l v).list r = s.list r := rfl
@[simp] theorem list_setTrig (t : TrigNo) (v : Channel) (r : ListRef) : (s.setTrig t v).list r = s.list r := rfl
@[simp] theorem list_post (q : Report) (r : ListRef) : (s.post q).list r = s.list r := rfl

/-! ## Lists -/

end State

/-- A list after its own replacement. -/
@[simp] theorem Scheduler.list_setList (q : Scheduler) (r : ListRef) (v : List SlotNo) : (q.setList r v).list r = v := by
  cases r with
  | due tb => cases tb <;> rfl
  | wait t => simp [Scheduler.list, Scheduler.setList]

/-- Another list after a replacement. -/
@[simp] theorem Scheduler.list_setList_ne (q : Scheduler) {r r' : ListRef} (v : List SlotNo) (h : r' ≠ r) :
    (q.setList r v).list r' = q.list r' := by
  cases r with
  | due tb =>
    cases r' with
    | due tb' => cases tb <;> cases tb' <;> first | rfl | exact absurd rfl h
    | wait t' => cases tb <;> rfl
  | wait t =>
    cases r' with
    | due tb' => cases tb' <;> rfl
    | wait t' =>
      have : (t : Nat) ≠ t' := fun e => h (by rw [Fin.ext e])
      simp [Scheduler.list, Scheduler.setList, Vector.getElem_set_ne, this]

namespace State

variable (s : State)

@[simp] theorem list_setList (r : ListRef) (v : List SlotNo) : (s.setList r v).list r = v := by
  simp [list, setList]

@[simp] theorem list_setList_ne {r r' : ListRef} (v : List SlotNo) (h : r' ≠ r) :
    (s.setList r v).list r' = s.list r' := by
  simp [list, setList, h]

@[simp] theorem list_removeFrom (r : ListRef) (x : SlotNo) : (s.removeFrom r x).list r = (s.list r).erase x := by
  simp [removeFrom]

@[simp] theorem list_removeFrom_ne {r r' : ListRef} (x : SlotNo) (h : r' ≠ r) :
    (s.removeFrom r x).list r' = s.list r' := by
  simp [removeFrom, h]

@[simp] theorem slot_removeFrom (r : ListRef) (x y : SlotNo) : (s.removeFrom r x).slot y = s.slot y := rfl
@[simp] theorem line_removeFrom (r : ListRef) (x : SlotNo) (l : LineNo) : (s.removeFrom r x).line l = s.line l := rfl
@[simp] theorem slot_insertDue (tb : Timebase) (x y : SlotNo) : (s.insertDue tb x).slot y = s.slot y := rfl
@[simp] theorem line_insertDue (tb : Timebase) (x : SlotNo) (l : LineNo) : (s.insertDue tb x).line l = s.line l := rfl

@[simp] theorem list_insertDue (tb : Timebase) (x : SlotNo) :
    (s.insertDue tb x).list (.due tb) = insertByDistance (s.distanceOn tb) x (s.list (.due tb)) := by
  simp [insertDue]

@[simp] theorem list_insertDue_ne {tb : Timebase} {r : ListRef} (x : SlotNo) (h : r ≠ .due tb) :
    (s.insertDue tb x).list r = s.list r := by
  simp [insertDue, h]

/-! ## Counters -/

@[simp] theorem counterOf_setCounter (tb : Timebase) (c : Counter) : (s.setCounter tb c).counterOf tb = c := by
  cases tb <;> rfl

@[simp] theorem counterOf_setCounter_ne {tb tb' : Timebase} (c : Counter) (h : tb' ≠ tb) :
    (s.setCounter tb c).counterOf tb' = s.counterOf tb' := by
  cases tb <;> cases tb' <;> first | rfl | exact absurd rfl h

@[simp] theorem slot_setCounter (tb : Timebase) (c : Counter) (x : SlotNo) :
    (s.setCounter tb c).slot x = s.slot x := by cases tb <;> rfl

@[simp] theorem line_setCounter (tb : Timebase) (c : Counter) (l : LineNo) :
    (s.setCounter tb c).line l = s.line l := by cases tb <;> rfl

@[simp] theorem list_setCounter (tb : Timebase) (c : Counter) (r : ListRef) :
    (s.setCounter tb c).list r = s.list r := by cases tb <;> rfl

end State

end Sys2Proof.Machine
end

