-- ==== Sys2Proof/Laws/Lines.lean ====
section
/-! SUPPORT. What each operation of the line unit and the trigger unit does to a record. -/

namespace Sys2Proof.Machine

/-! ## Electrical and logical state (R83) -/

/-- A line put at the logical state of a level drives that level. -/
@[simp] theorem electrical_logicalFor (p : Polarity) (v : Level) : electrical p (logicalFor p v) = v := by
  cases p <;> cases v <;> rfl

/-- A line given up stands at its safe level (R170). -/
@[simp] theorem Line.level_stopped (l : Line) : l.stopped.level = l.safe := electrical_logicalFor _ _

/-- A line reset softly stands at its safe level (R99). -/
@[simp] theorem Line.level_softReset (l : Line) : l.softReset.level = l.safe := electrical_logicalFor _ _

/-! ## Owners (R89 to R91) -/

namespace State

variable (s : State)

/-- A slot holds a line when it is ARMED or WAITING, has an action, and names the line (R89). -/
theorem holds_iff (l : LineNo) (x : SlotNo) :
    s.holds l x = true ↔ ((s.slot x).run.state = .armed ∨ (s.slot x).run.state = .waiting) ∧
      (s.slot x).config.action ≠ .none ∧ (s.slot x).config.line = l := by
  simp [holds]

/-- A line has a holding owner when its owner holds it (R89). -/
theorem ownerHolds_iff (l : LineNo) : s.ownerHolds l = true ↔ ∃ o, (s.line l).owner = some o ∧ s.holds l o = true := by
  unfold ownerHolds
  cases (s.line l).owner <;> simp

/-- A claim is refused when another slot is the holding owner (R91). -/
theorem claimRefused_iff (x : SlotNo) (l : LineNo) :
    s.claimRefused x l = true ↔ (s.line l).owner ≠ some x ∧ s.ownerHolds l = true := by
  simp [claimRefused]

/-- What a claim gives: LINE_BUSY, or the line with the slot as owner and the forced flag clear (R91). -/
theorem claim_cases (x : SlotNo) (l : LineNo) :
    (s.claimRefused x l = true ∧ s.claim x l = none) ∨
      (s.claimRefused x l = false ∧ s.claim x l = some (s.setLine l ((s.line l).granted x))) := by
  unfold claim
  cases h : s.claimRefused x l <;> simp

/-- What the fourth check of an arm attempt gives (R54): a slot whose action is NONE passes as it is. -/
theorem claimFor_cases (x : SlotNo) :
    ((s.slot x).config.action = .none ∧ s.claimFor x = some s) ∨
      ((s.slot x).config.action ≠ .none ∧ s.claimRefused x (s.slot x).config.line = true ∧ s.claimFor x = none) ∨
      ((s.slot x).config.action ≠ .none ∧ s.claimRefused x (s.slot x).config.line = false ∧
        s.claimFor x = some (s.setLine (s.slot x).config.line ((s.line (s.slot x).config.line).granted x))) := by
  unfold claimFor
  by_cases h : (s.slot x).config.action = .none
  · simp [h]
  · rcases s.claim_cases x (s.slot x).config.line with ⟨h1, h2⟩ | ⟨h1, h2⟩ <;> simp [h, h1, h2]

/-! ## The base tick (R86, R104) -/

/-- Every line takes a base tick by its own record and whether its owner holds it (R86). -/
@[simp] theorem line_lineTick (l : LineNo) : s.lineTick.line l = (s.line l).tick (s.ownerHolds l) :=
  bankMap_get _ _ _

/-- Every channel takes a base tick by its own record (R104). -/
@[simp] theorem trig_trigTick (t : TrigNo) :
    s.trigTick.trig t = { s.trig t with lockLeft := lower (s.trig t).lockLeft } :=
  bankMap_get _ _ _

end State

/-- A countdown of 2 or more is lowered by one (R86). -/
theorem Line.tick_lowers {l : Line} (b : Bool) (hf : l.fresh = false) (h : 2 ≤ l.countdown.toNat) :
    l.tick b = { l with countdown := l.countdown - 1 } := by
  have h0 : ¬ l.countdown = 0 := by intro e; rw [e] at h; simp at h
  have h1 : ¬ l.countdown = 1 := by intro e; rw [e] at h; simp at h
  simp only [Line.tick, hf, Bool.false_eq_true, if_false]
  rw [if_neg h0, if_neg h1]

/-- A countdown of 1 ends its pulse, and the owner stays if it is a holding owner (R86). -/
theorem Line.tick_ends {l : Line} (b : Bool) (hf : l.fresh = false) (h : l.countdown = 1) :
    l.tick b = { l with countdown := 0, logical := .inactive, owner := if b then l.owner else none } := by
  simp [Line.tick, hf, h]

/-- A line with no pulse is not touched but for its marker (R86, R87). -/
theorem Line.tick_idle {l : Line} (b : Bool) (h : l.countdown = 0) : l.tick b = { l with fresh := false } := by
  obtain ⟨p, v, g, o, c, f, m⟩ := l
  cases m <;> simp_all [Line.tick]

/-- A marked line keeps its countdown, and the marker is cleared (R87). -/
theorem Line.tick_fresh {l : Line} (b : Bool) (h : l.fresh = true) : l.tick b = { l with fresh := false } := by
  simp [Line.tick, h]

/-! ## The soft reset of the banks (R34, R99, R114) and the release of every line (R170) -/

namespace State

variable (s : State)

@[simp] theorem slot_softReset (x : SlotNo) : s.softReset.slot x = (s.slot x).softReset := bankMap_get _ _ _
@[simp] theorem line_softReset (l : LineNo) : s.softReset.line l = (s.line l).softReset := bankMap_get _ _ _
@[simp] theorem trig_softReset (t : TrigNo) : s.softReset.trig t = (s.trig t).softReset := bankMap_get _ _ _

@[simp] theorem list_softReset (r : ListRef) : s.softReset.list r = [] := by
  cases r with
  | due tb => cases tb <;> rfl
  | wait t => exact Vector.getElem_replicate _

/-- After the assertion every line is given up (R170). -/
@[simp] theorem line_giveUp (l : LineNo) :
    s.giveUp.line l = ((stopOrder.foldl stopList s).line l).stopped := bankMap_get _ _ _

/-- SET TICK looks for a pulse on any line (R3). -/
theorem slot_giveUp (x : SlotNo) : s.giveUp.slot x = (stopOrder.foldl State.stopList s).slot x := by
  simp only [giveUp, slot, slots_withLines]

theorem list_giveUp (r : ListRef) : s.giveUp.list r = (stopOrder.foldl State.stopList s).list r := by
  simp only [giveUp, list, sched_withLines]

theorem reports_giveUp : s.giveUp.reports = (stopOrder.foldl State.stopList s).reports := by
  simp only [giveUp, reports_withLines]

theorem pulsePending_iff : s.pulsePending = true ↔ ∃ l, (s.line l).countdown ≠ 0 := by
  simp [pulsePending]

end State

end Sys2Proof.Machine
end

