-- ==== Sys2Proof/Laws/Frames.lean ====
section
/-! SUPPORT. What the operations of the scheduler and the line unit leave alone: each changes slots, lists and lines, and
hands reports to the queue, and nothing else. -/

namespace Sys2Proof.Machine

/-! ## The report queue grows at its tail (R116, R117) -/

/-- The queue `q'` is `q` with reports appended or discarded: its entries begin with those of `q`, in order, its
watermark is the same, and it holds at most 32 entries if `q` does. -/
structure ReportQueue.Extends (q q' : ReportQueue) : Prop where
  head : q.entries <+: q'.entries
  watermark : q'.watermark = q.watermark
  bounded : q.entries.length ≤ 32 → q'.entries.length ≤ 32

theorem ReportQueue.Extends.refl (q : ReportQueue) : q.Extends q := ⟨List.prefix_rfl, rfl, id⟩

theorem ReportQueue.Extends.trans {p q r : ReportQueue} (h : p.Extends q) (h' : q.Extends r) : p.Extends r :=
  ⟨h.head.trans h'.head, h'.watermark.trans h.watermark, h'.bounded ∘ h.bounded⟩

/-- Below 32 entries a report is appended with the lost count, which returns to 0 (R116). -/
theorem ReportQueue.append_room {q : ReportQueue} (r : Report) (h : q.entries.length < 32) :
    q.append r = { q with entries := q.entries ++ [{ r with lost := q.lost }], lost := 0 } := by
  simp [ReportQueue.append, Config.queueDepth, h]

/-- At 32 entries a report is discarded and counted (R117). -/
theorem ReportQueue.append_full {q : ReportQueue} (r : Report) (h : ¬ q.entries.length < 32) :
    q.append r = { q with lost := raise255 q.lost } := by
  simp [ReportQueue.append, Config.queueDepth, h]

/-- An append extends the queue. -/
theorem ReportQueue.append_extends (q : ReportQueue) (r : Report) : q.Extends (q.append r) := by
  by_cases h : q.entries.length < 32
  · rw [q.append_room r h]
    exact ⟨List.prefix_append _ _, rfl, fun _ => by simpa using h⟩
  · rw [q.append_full r h]
    exact ⟨List.prefix_rfl, rfl, id⟩

/-! ## The frame of a scheduling operation -/

/-- From `s` to `t` only slots, lists and lines have changed, and reports have been handed to the queue. -/
structure SchedStep (s t : State) : Prop where
  pending : t.pending = s.pending
  resetHeld : t.resetHeld = s.resetHeld
  readData : t.readData = s.readData
  timebase : t.timebase = s.timebase
  trigs : t.trigs = s.trigs
  record : t.record = s.record
  engine : t.engine = s.engine
  intEnable : t.intEnable = s.intEnable
  stop : t.stop = s.stop
  freeIndex : t.freeIndex = s.freeIndex
  reports : s.reports.Extends t.reports

namespace SchedStep

theorem refl (s : State) : SchedStep s s := ⟨rfl, rfl, rfl, rfl, rfl, rfl, rfl, rfl, rfl, rfl, .refl _⟩

theorem trans {s t u : State} (h : SchedStep s t) (k : SchedStep t u) : SchedStep s u :=
  ⟨k.pending.trans h.pending, k.resetHeld.trans h.resetHeld, k.readData.trans h.readData,
    k.timebase.trans h.timebase, k.trigs.trans h.trigs, k.record.trans h.record, k.engine.trans h.engine,
    k.intEnable.trans h.intEnable, k.stop.trans h.stop, k.freeIndex.trans h.freeIndex, h.reports.trans k.reports⟩

/-- The counters are not reached. -/
theorem now {s t : State} (h : SchedStep s t) (tb : Timebase) : t.now tb = s.now tb := by
  cases tb <;> simp [State.now, State.counterOf, h.timebase]

/-- A fold of scheduling operations is one. -/
theorem foldl {f : State → SlotNo → State} (hf : ∀ s x, SchedStep s (f s x)) (xs : List SlotNo) (s : State) :
    SchedStep s (xs.foldl f s) := by
  induction xs generalizing s with
  | nil => exact .refl s
  | cons x xs ih => exact (hf s x).trans (ih _)

end SchedStep

namespace State

variable (s : State)

/-! ## Every operation of the scheduler and the line unit is one -/

theorem setSlot_schedStep (x : SlotNo) (v : Slot) : SchedStep s (s.setSlot x v) :=
  ⟨rfl, rfl, rfl, rfl, rfl, rfl, rfl, rfl, rfl, rfl, .refl _⟩

theorem setRun_schedStep (x : SlotNo) (r : RunPart) : SchedStep s (s.setRun x r) := s.setSlot_schedStep x _

theorem setLine_schedStep (l : LineNo) (v : Line) : SchedStep s (s.setLine l v) :=
  ⟨rfl, rfl, rfl, rfl, rfl, rfl, rfl, rfl, rfl, rfl, .refl _⟩

theorem withLines_schedStep (v : Vector Line 16) : SchedStep s (s.withLines v) :=
  ⟨rfl, rfl, rfl, rfl, rfl, rfl, rfl, rfl, rfl, rfl, .refl _⟩

theorem setList_schedStep (r : ListRef) (v : List SlotNo) : SchedStep s (s.setList r v) :=
  ⟨rfl, rfl, rfl, rfl, rfl, rfl, rfl, rfl, rfl, rfl, .refl _⟩

theorem removeFrom_schedStep (r : ListRef) (x : SlotNo) : SchedStep s (s.removeFrom r x) := s.setList_schedStep r _

theorem insertDue_schedStep (tb : Timebase) (x : SlotNo) : SchedStep s (s.insertDue tb x) := s.setList_schedStep _ _

theorem post_schedStep (r : Report) : SchedStep s (s.post r) :=
  ⟨rfl, rfl, rfl, rfl, rfl, rfl, rfl, rfl, rfl, rfl, s.reports.append_extends r⟩

theorem postIf_schedStep (b : Bool) (r : Report) : SchedStep s (s.postIf b r) := by
  unfold postIf; split
  · exact s.post_schedStep r
  · exact .refl s

theorem releaseLine_schedStep (x : SlotNo) : SchedStep s (s.releaseLine x) := by
  simp only [releaseLine]; split
  · exact .refl s
  · exact s.setLine_schedStep _ _

theorem actOnLine_schedStep (x : SlotNo) (fresh : Bool) : SchedStep s (s.actOnLine x fresh) := by
  simp only [actOnLine]; split
  · exact .refl s
  · exact s.setLine_schedStep _ _

theorem cutLine_schedStep (x : SlotNo) : SchedStep s (s.cutLine x) := by
  simp only [cutLine]; split
  · exact .refl s
  · exact s.setLine_schedStep _ _

theorem undoClaim_schedStep (l : LineNo) (o : Option SlotNo) : SchedStep s (s.undoClaim l o) :=
  s.setLine_schedStep _ _

theorem claimFor_schedStep {x : SlotNo} {t : State} (h : s.claimFor x = some t) : SchedStep s t := by
  simp only [claimFor, claim] at h
  split at h
  · cases h; exact .refl s
  · split at h
    · cases h
    · cases h; exact s.setLine_schedStep _ _

theorem passChecks_schedStep {mode : ArmMode} {x : SlotNo} {t : State} (h : s.passChecks mode x = .ok t) :
    SchedStep s t := by
  simp only [passChecks] at h
  split at h
  · cases h
  · split at h
    · next h' => cases h; exact s.claimFor_schedStep h'
    · cases h

theorem armInto_schedStep (x : SlotNo) (due : Word) : SchedStep s (s.armInto x due) :=
  (s.setRun_schedStep x _).trans (insertDue_schedStep _ _ _)

theorem chainAttempt_schedStep {y : SlotNo} {t : State} (h : s.chainAttempt y = .ok t) : SchedStep s t := by
  simp only [chainAttempt] at h
  split at h
  · cases h
  · next h' => cases h; exact (s.passChecks_schedStep h').trans (armInto_schedStep _ _ _)

theorem countDown_schedStep (x : SlotNo) : SchedStep s (s.countDown x) := by
  simp only [countDown]; split
  · exact ((s.removeFrom_schedStep _ x).trans (setRun_schedStep _ _ _)).trans (releaseLine_schedStep _ _)
  · exact ((s.removeFrom_schedStep _ x).trans (setRun_schedStep _ _ _)).trans (insertDue_schedStep _ _ _)

theorem chainFrom_schedStep (y : SlotNo) (f : ChainCause → Report) : SchedStep s (s.chainFrom y f) := by
  simp only [chainFrom]; split
  · next h => exact s.chainAttempt_schedStep h
  · exact .refl s
  · exact s.post_schedStep _

theorem fireOwn_schedStep (x : SlotNo) (kind : ReportKind) (fresh : Bool) : SchedStep s (s.fireOwn x kind fresh) :=
  ((s.actOnLine_schedStep x fresh).trans
    (postIf_schedStep _ (s.slot x).config.reportEnable (s.fireReport x kind))).trans (countDown_schedStep _ x)

theorem fire_schedStep (x : SlotNo) (kind : ReportKind) (fresh : Bool) : SchedStep s (s.fire x kind fresh) := by
  simp only [fire]; split
  · exact (s.fireOwn_schedStep x kind fresh).trans (chainFrom_schedStep _ _ _)
  · exact s.fireOwn_schedStep x kind fresh

theorem dropLate_schedStep (x : SlotNo) (due : Word) (o : Option SlotNo) : SchedStep s (s.dropLate x due o) := by
  simp only [dropLate]; split
  · exact s.postIf_schedStep _ _
  · exact (s.undoClaim_schedStep _ _).trans (postIf_schedStep _ _ _)

theorem armAttempt_schedStep (mode : ArmMode) (x : SlotNo) : SchedStep s (s.armAttempt mode x).state := by
  simp only [armAttempt]
  split
  · exact .refl s
  · next h =>
    have h := s.passChecks_schedStep h
    split
    · exact h.trans (armInto_schedStep _ _ _)
    · split
      · exact (h.trans (setRun_schedStep _ _ _)).trans (fire_schedStep _ _ _ _)
      · split
        · exact (h.trans (setRun_schedStep _ _ _)).trans (fire_schedStep _ _ _ _)
        · exact h.trans (dropLate_schedStep _ _ _ _)

theorem waitArm_schedStep (x : SlotNo) (t : TrigNo) : SchedStep s (s.waitArm x t).state := by
  simp only [waitArm]
  split
  · exact .refl s
  · next h => exact ((s.passChecks_schedStep h).trans (setRun_schedStep _ _ _)).trans (setList_schedStep _ _ _)

theorem toHeld_schedStep (r : ListRef) (x : SlotNo) : SchedStep s (s.toHeld r x) :=
  (s.removeFrom_schedStep r x).trans (setRun_schedStep _ _ _)

theorem cancelSlot_schedStep (r : ListRef) (x : SlotNo) (cut : Bool) (aux : Aux) :
    SchedStep s (s.cancelSlot r x cut aux) := by
  simp only [cancelSlot]
  refine SchedStep.trans ?_ (postIf_schedStep _ _ _)
  refine SchedStep.trans ?_ (releaseLine_schedStep _ _)
  split
  · exact (s.toHeld_schedStep r x).trans (cutLine_schedStep _ _)
  · exact s.toHeld_schedStep r x

theorem stopSlot_schedStep (r : ListRef) (x : SlotNo) : SchedStep s (s.stopSlot r x) :=
  (s.toHeld_schedStep r x).trans (postIf_schedStep _ _ _)

theorem cancel_schedStep (x : SlotNo) (cut : Bool) : SchedStep s (s.cancel x cut).state := by
  simp only [cancel]; split
  · exact s.cancelSlot_schedStep _ _ _ _
  · exact .refl s

theorem flush_schedStep (t : TrigNo) : SchedStep s (s.flush t) :=
  .foldl (fun s x => s.cancelSlot_schedStep _ x _ _) _ _

theorem fireRun_schedStep (xs : List SlotNo) (fresh : Bool) : SchedStep s (s.fireRun xs fresh) :=
  .foldl (fun s x => s.fire_schedStep x _ _) _ _

theorem bind_schedStep (t : TrigNo) (x : SlotNo) (rest : List SlotNo) : SchedStep s (s.bind t x rest) := by
  have h := ((s.setList_schedStep (.wait t) rest).trans
    (postIf_schedStep _ (s.slot x).config.reportEnable (s.boundReport x t))).trans
      (setRun_schedStep _ x ((s.slot x).run.boundRun (s.now (s.slot x).config.timebase + (s.slot x).config.offset)))
  simp only [bind]; split
  · exact h.trans (fire_schedStep _ _ _ _)
  · exact h.trans (insertDue_schedStep _ _ _)

theorem takeEdge_schedStep (t : TrigNo) : SchedStep s (s.takeEdge t) := by
  simp only [takeEdge]; split
  · exact s.bind_schedStep _ _ _
  · exact s.postIf_schedStep _ _

theorem stopList_schedStep (r : ListRef) : SchedStep s (s.stopList r) := .foldl (fun s x => s.stopSlot_schedStep r x) _ _

theorem giveUp_schedStep : SchedStep s s.giveUp := by
  have h : ∀ (rs : List ListRef) (s : State), SchedStep s (rs.foldl stopList s) := by
    intro rs
    induction rs with
    | nil => exact .refl
    | cons r rs ih => exact fun s => (s.stopList_schedStep r).trans (ih _)
  exact (h stopOrder s).trans (withLines_schedStep _ _)

theorem lineTick_schedStep : SchedStep s s.lineTick := s.withLines_schedStep _

end State

end Sys2Proof.Machine
end

