-- ==== Sys2Proof/Laws/Scheduling.lean ====
section
/-! SUPPORT. What each operation of the scheduler does to slots, lists, lines and the queue: one lemma for each operation and
each of the four. -/

namespace Sys2Proof.Machine

/-! ## Insertion by distance (R50) -/

/-- Where an insertion places its entry (R50). -/
theorem insertByDistance_split (dist : SlotNo → Nat) (x : SlotNo) (l : List SlotNo) :
    ∃ before after, l = before ++ after ∧ insertByDistance dist x l = before ++ x :: after ∧
      (∀ y ∈ before, dist y ≤ dist x) ∧ ∀ y ∈ after.head?, dist x < dist y := by
  induction l with
  | nil => exact ⟨[], [], rfl, rfl, by simp, by simp⟩
  | cons y ys ih =>
    by_cases h : dist y ≤ dist x
    · obtain ⟨b, a, h1, h2, h3, h4⟩ := ih
      exact ⟨y :: b, a, by simp [h1], by simp [insertByDistance, h, h2], by simpa [h] using h3, h4⟩
    · exact ⟨[], y :: ys, rfl, by simp [insertByDistance, h], by simp, by simpa using h⟩

/-- An insertion adds its entry and no other. -/
@[simp] theorem mem_insertByDistance (dist : SlotNo → Nat) (x y : SlotNo) (l : List SlotNo) :
    y ∈ insertByDistance dist x l ↔ y = x ∨ y ∈ l := by
  obtain ⟨b, a, h1, h2, -, -⟩ := insertByDistance_split dist x l
  rw [h2, h1]; simp; tauto

/-- An insertion of a new entry keeps a list without repeats. -/
theorem nodup_insertByDistance (dist : SlotNo → Nat) {x : SlotNo} {l : List SlotNo} (h : l.Nodup) (hx : x ∉ l) :
    (insertByDistance dist x l).Nodup := by
  obtain ⟨b, a, h1, h2, -, -⟩ := insertByDistance_split dist x l
  rw [h2]
  exact (List.perm_middle.nodup_iff).2 (by rw [← h1]; exact List.nodup_cons.2 ⟨hx, h⟩)

/-- An insertion keeps a due list in non-decreasing distance (R50). -/
theorem sorted_insertByDistance (dist : SlotNo → Nat) (x : SlotNo) {l : List SlotNo}
    (h : l.Pairwise fun a b => dist a ≤ dist b) :
    (insertByDistance dist x l).Pairwise fun a b => dist a ≤ dist b := by
  obtain ⟨b, a, h1, h2, h3, h4⟩ := insertByDistance_split dist x l
  rw [h1, List.pairwise_append] at h
  obtain ⟨hb, ha, hba⟩ := h
  rw [h2, List.pairwise_append]
  refine ⟨hb, ?_, ?_⟩
  · refine List.pairwise_cons.2 ⟨fun z hz => ?_, ha⟩
    cases a with
    | nil => cases hz
    | cons y ys =>
      have hy : dist x < dist y := h4 y rfl
      rcases List.mem_cons.1 hz with rfl | hz
      · exact hy.le
      · exact hy.le.trans ((List.pairwise_cons.1 ha).1 z hz)
  · intro y hy z hz
    rcases List.mem_cons.1 hz with rfl | hz
    · exact h3 y hy
    · exact hba y hy z hz

/-- An insertion looks only at the distances of its entry and of the list. -/
theorem insertByDistance_congr {dist dist' : SlotNo → Nat} {x : SlotNo} {l : List SlotNo} (hx : dist x = dist' x)
    (h : ∀ y ∈ l, dist y = dist' y) : insertByDistance dist x l = insertByDistance dist' x l := by
  induction l with
  | nil => rfl
  | cons y ys ih =>
    simp only [insertByDistance, h y (by simp), hx, ih fun z hz => h z (by simp [hz])]

/-! ## Due points (R6, R7) -/

/-- A due point is not reached exactly when its distance is 1 to 2^31 (R7). -/
theorem not_reached_iff (c d : Word) : reached c d = false ↔ 1 ≤ distance c d ∧ distance c d ≤ 2 ^ 31 := by
  simp only [reached, distance, decide_eq_false_iff_not]
  bv_omega

/-- An advance lowers the distance of a due point that is not reached (R7). -/
theorem distance_advance {c d : Word} (h : 1 ≤ distance c d) : distance (c + 1) d = distance c d - 1 := by
  simp only [distance] at *
  bv_omega

/-- A due point an offset ahead of the counter has the offset as distance (R55). -/
@[simp] theorem distance_add (c o : Word) : distance c (c + o) = o.toNat := by
  simp only [distance]
  bv_omega

/-- A due point has distance 0 exactly when it is the counter (R7). -/
theorem distance_eq_zero (c d : Word) : distance c d = 0 ↔ d = c := by
  simp only [distance]
  constructor <;> intro h <;> bv_omega

namespace State

variable (s : State)

/-! ## Posting -/

@[simp] theorem slot_postIf (b : Bool) (r : Report) (x : SlotNo) : (s.postIf b r).slot x = s.slot x := by
  cases b <;> rfl

@[simp] theorem line_postIf (b : Bool) (r : Report) (l : LineNo) : (s.postIf b r).line l = s.line l := by
  cases b <;> rfl

@[simp] theorem list_postIf (b : Bool) (r : Report) (q : ListRef) : (s.postIf b r).list q = s.list q := by
  cases b <;> rfl

theorem reports_postIf (b : Bool) (r : Report) :
    (s.postIf b r).reports = if b then s.reports.append r else s.reports := by
  cases b <;> rfl

@[simp] theorem slots_postIf (b : Bool) (r : Report) : (s.postIf b r).slots = s.slots := by cases b <;> rfl
@[simp] theorem sched_postIf (b : Bool) (r : Report) : (s.postIf b r).sched = s.sched := by cases b <;> rfl
@[simp] theorem lines_postIf (b : Bool) (r : Report) : (s.postIf b r).lines = s.lines := by cases b <;> rfl

/-! ## Line requests -/

/-- The line action of a fire changes the slot's line, where it has an action (R62). -/
theorem line_actOnLine (x : SlotNo) (fresh : Bool) (l : LineNo) :
    (s.actOnLine x fresh).line l =
      if (s.slot x).config.action ≠ .none ∧ l = (s.slot x).config.line then
        (s.line l).act (s.slot x).config.action (s.slot x).config.width fresh
      else s.line l := by
  unfold actOnLine
  by_cases h : (s.slot x).config.action = .none
  · simp [h]
  · by_cases hl : l = (s.slot x).config.line <;> simp [h, hl]

/-- A release changes the slot's line, where it has an action (R90). -/
theorem line_releaseLine (x : SlotNo) (l : LineNo) :
    (s.releaseLine x).line l =
      if (s.slot x).config.action ≠ .none ∧ l = (s.slot x).config.line then (s.line l).released x else s.line l := by
  unfold releaseLine
  by_cases h : (s.slot x).config.action = .none
  · simp [h]
  · by_cases hl : l = (s.slot x).config.line <;> simp [h, hl]

/-- A cut changes the slot's line, where it has an action (R97). -/
theorem line_cutLine (x : SlotNo) (l : LineNo) :
    (s.cutLine x).line l =
      if (s.slot x).config.action ≠ .none ∧ l = (s.slot x).config.line then (s.line l).cut x else s.line l := by
  unfold cutLine
  by_cases h : (s.slot x).config.action = .none
  · simp [h]
  · by_cases hl : l = (s.slot x).config.line <;> simp [h, hl]

section

variable (x : SlotNo) (fresh : Bool)

@[simp] theorem slots_actOnLine : (s.actOnLine x fresh).slots = s.slots := by simp only [actOnLine]; split <;> rfl
@[simp] theorem sched_actOnLine : (s.actOnLine x fresh).sched = s.sched := by simp only [actOnLine]; split <;> rfl
@[simp] theorem reports_actOnLine : (s.actOnLine x fresh).reports = s.reports := by
  simp only [actOnLine]; split <;> rfl

@[simp] theorem slot_actOnLine (y : SlotNo) : (s.actOnLine x fresh).slot y = s.slot y := slot_congr (by simp) y
@[simp] theorem list_actOnLine (r : ListRef) : (s.actOnLine x fresh).list r = s.list r := by simp [list]

@[simp] theorem slots_releaseLine : (s.releaseLine x).slots = s.slots := by simp only [releaseLine]; split <;> rfl
@[simp] theorem sched_releaseLine : (s.releaseLine x).sched = s.sched := by simp only [releaseLine]; split <;> rfl
@[simp] theorem reports_releaseLine : (s.releaseLine x).reports = s.reports := by
  simp only [releaseLine]; split <;> rfl

@[simp] theorem slot_releaseLine (y : SlotNo) : (s.releaseLine x).slot y = s.slot y := slot_congr (by simp) y
@[simp] theorem list_releaseLine (r : ListRef) : (s.releaseLine x).list r = s.list r := by simp [list]

@[simp] theorem slots_cutLine : (s.cutLine x).slots = s.slots := by simp only [cutLine]; split <;> rfl
@[simp] theorem sched_cutLine : (s.cutLine x).sched = s.sched := by simp only [cutLine]; split <;> rfl
@[simp] theorem reports_cutLine : (s.cutLine x).reports = s.reports := by simp only [cutLine]; split <;> rfl

@[simp] theorem slot_cutLine (y : SlotNo) : (s.cutLine x).slot y = s.slot y := slot_congr (by simp) y
@[simp] theorem list_cutLine (r : ListRef) : (s.cutLine x).list r = s.list r := by simp [list]

end

/-! ## Counters: no scheduling operation reaches them -/

section

variable (tb : Timebase) (x : SlotNo)

@[simp] theorem now_setSlot (v : Slot) : (s.setSlot x v).now tb = s.now tb := (s.setSlot_schedStep x v).now tb
@[simp] theorem now_setRun (r : RunPart) : (s.setRun x r).now tb = s.now tb := (s.setRun_schedStep x r).now tb
@[simp] theorem now_setLine (l : LineNo) (v : Line) : (s.setLine l v).now tb = s.now tb :=
  (s.setLine_schedStep l v).now tb
@[simp] theorem now_setList (r : ListRef) (v : List SlotNo) : (s.setList r v).now tb = s.now tb :=
  (s.setList_schedStep r v).now tb
@[simp] theorem now_removeFrom (r : ListRef) : (s.removeFrom r x).now tb = s.now tb :=
  (s.removeFrom_schedStep r x).now tb
@[simp] theorem now_insertDue (tb' : Timebase) : (s.insertDue tb' x).now tb = s.now tb :=
  (s.insertDue_schedStep tb' x).now tb
@[simp] theorem now_post (r : Report) : (s.post r).now tb = s.now tb := (s.post_schedStep r).now tb
@[simp] theorem now_postIf (b : Bool) (r : Report) : (s.postIf b r).now tb = s.now tb :=
  (s.postIf_schedStep b r).now tb
@[simp] theorem now_actOnLine (f : Bool) : (s.actOnLine x f).now tb = s.now tb := (s.actOnLine_schedStep x f).now tb
@[simp] theorem now_releaseLine : (s.releaseLine x).now tb = s.now tb := (s.releaseLine_schedStep x).now tb
@[simp] theorem now_cutLine : (s.cutLine x).now tb = s.now tb := (s.cutLine_schedStep x).now tb
@[simp] theorem now_countDown : (s.countDown x).now tb = s.now tb := (s.countDown_schedStep x).now tb
@[simp] theorem now_fire (k : ReportKind) (f : Bool) : (s.fire x k f).now tb = s.now tb :=
  (s.fire_schedStep x k f).now tb
@[simp] theorem now_toHeld (r : ListRef) : (s.toHeld r x).now tb = s.now tb := (s.toHeld_schedStep r x).now tb
@[simp] theorem now_withSlots (v : Vector Slot 128) : (s.withSlots v).now tb = s.now tb := by cases tb <;> rfl
@[simp] theorem now_setTrig (t : TrigNo) (v : Channel) : (s.setTrig t v).now tb = s.now tb := by cases tb <;> rfl

end

/-! ## Step 3 of a fire (R64) -/

section

variable {x : SlotNo}

/-- The last fire: the slot leaves its due list, is HELD, and releases its line. -/
theorem countDown_last (h : (s.slot x).lastFire = true) :
    s.countDown x = ((s.removeFrom (.due (s.slot x).config.timebase) x).setRun x .held).releaseLine x := by
  simp [countDown, h]

/-- Any other fire: the slot stands again in its due list, one period after the counter. -/
theorem countDown_again (h : (s.slot x).lastFire = false) :
    s.countDown x = ((s.removeFrom (.due (s.slot x).config.timebase) x).setRun x
      { (s.slot x).run with
        remaining := (s.slot x).remainingAfter
        due := s.now (s.slot x).config.timebase + (s.slot x).config.period }).insertDue
          (s.slot x).config.timebase x := by
  simp [countDown, h]

/-- The run part that step 3 of a fire leaves. -/
def runAfter (s : State) (x : SlotNo) : RunPart :=
  if (s.slot x).lastFire then .held
  else
    { (s.slot x).run with
      remaining := (s.slot x).remainingAfter
      due := s.now (s.slot x).config.timebase + (s.slot x).config.period }

@[simp] theorem slot_countDown : (s.countDown x).slot x = { s.slot x with run := s.runAfter x } := by
  cases h : (s.slot x).lastFire
  · simp [s.countDown_again h, runAfter, h]
  · simp [s.countDown_last h, runAfter, h]

@[simp] theorem slot_countDown_ne {y : SlotNo} (hy : y ≠ x) : (s.countDown x).slot y = s.slot y := by
  cases h : (s.slot x).lastFire
  · simp [s.countDown_again h, hy]
  · simp [s.countDown_last h, hy]

@[simp] theorem list_countDown_ne {r : ListRef} (hr : r ≠ .due (s.slot x).config.timebase) :
    (s.countDown x).list r = s.list r := by
  cases h : (s.slot x).lastFire
  · simp [s.countDown_again h, hr]
  · simp [s.countDown_last h, hr]

@[simp] theorem reports_countDown : (s.countDown x).reports = s.reports := by
  cases h : (s.slot x).lastFire
  · rw [s.countDown_again h]; rfl
  · rw [s.countDown_last h, reports_releaseLine]; rfl

/-- The lines after step 3: released by a last fire, otherwise as they were. -/
theorem line_countDown (l : LineNo) :
    (s.countDown x).line l =
      if (s.slot x).lastFire = true ∧ (s.slot x).config.action ≠ .none ∧ l = (s.slot x).config.line then
        (s.line l).released x
      else s.line l := by
  cases h : (s.slot x).lastFire
  · simp [s.countDown_again h]
  · simp [s.countDown_last h, line_releaseLine]

end

/-! ## Steps 1 to 3 of a fire together (R62) -/

section

variable (x : SlotNo) (kind : ReportKind) (fresh : Bool)

@[simp] theorem now_fireOwn (tb : Timebase) : (s.fireOwn x kind fresh).now tb = s.now tb :=
  (s.fireOwn_schedStep x kind fresh).now tb

@[simp] theorem slot_fireOwn : (s.fireOwn x kind fresh).slot x = { s.slot x with run := s.runAfter x } := by
  simp [fireOwn, runAfter]

@[simp] theorem slot_fireOwn_ne {y : SlotNo} (h : y ≠ x) : (s.fireOwn x kind fresh).slot y = s.slot y := by
  simp [fireOwn, h]

@[simp] theorem config_fireOwn (y : SlotNo) : ((s.fireOwn x kind fresh).slot y).config = (s.slot y).config := by
  by_cases h : y = x
  · subst h; simp
  · simp [h]

/-- The last fire takes the slot out of its due list. -/
theorem list_fireOwn_last (h : (s.slot x).lastFire = true) :
    (s.fireOwn x kind fresh).list (.due (s.slot x).config.timebase) =
      (s.list (.due (s.slot x).config.timebase)).erase x := by
  simp only [fireOwn]
  rw [countDown_last _ (by simpa using h)]
  simp

/-- Any other fire puts the slot at the place of its new distance (R50). -/
theorem list_fireOwn_again (h : (s.slot x).lastFire = false) :
    (s.fireOwn x kind fresh).list (.due (s.slot x).config.timebase) =
      insertByDistance ((s.fireOwn x kind fresh).distanceOn (s.slot x).config.timebase) x
        ((s.list (.due (s.slot x).config.timebase)).erase x) := by
  simp only [fireOwn]
  rw [countDown_again _ (by simpa using h)]
  simp only [slot_postIf, slot_actOnLine, list_insertDue, list_setRun, list_removeFrom, list_postIf, list_actOnLine]
  rfl

@[simp] theorem list_fireOwn_ne {r : ListRef} (h : r ≠ .due (s.slot x).config.timebase) :
    (s.fireOwn x kind fresh).list r = s.list r := by
  simp only [fireOwn]
  rw [list_countDown_ne _ (by simpa using h)]
  simp

/-- The line of the slot is acted on, and released by a last fire. -/
theorem line_fireOwn (l : LineNo) :
    (s.fireOwn x kind fresh).line l =
      if (s.slot x).config.action ≠ .none ∧ l = (s.slot x).config.line then
        (if (s.slot x).lastFire then ((s.line l).act (s.slot x).config.action (s.slot x).config.width fresh).released x
          else (s.line l).act (s.slot x).config.action (s.slot x).config.width fresh)
      else s.line l := by
  simp only [fireOwn, line_countDown, slot_postIf, slot_actOnLine, line_postIf, line_actOnLine]
  by_cases h : (s.slot x).config.action ≠ .none ∧ l = (s.slot x).config.line
  · cases hl : (s.slot x).lastFire <;> simp [h]
  · rw [if_neg h, if_neg h, if_neg fun hc => h hc.2]

theorem reports_fireOwn :
    (s.fireOwn x kind fresh).reports =
      if (s.slot x).config.reportEnable then s.reports.append (s.fireReport x kind) else s.reports := by
  simp only [fireOwn, reports_countDown, reports_postIf, reports_actOnLine]

/-- A fire with chain enable clear is its own three steps. -/
theorem fire_unchained (h : (s.slot x).config.chainEnable = false) : s.fire x kind fresh = s.fireOwn x kind fresh := by
  simp [fire, h]

end

/-! ## Disarm (R66) -/

section

variable (r : ListRef) (x : SlotNo)

@[simp] theorem slot_toHeld : (s.toHeld r x).slot x = { s.slot x with run := .held } := by simp [toHeld]
@[simp] theorem slot_toHeld_ne {y : SlotNo} (h : y ≠ x) : (s.toHeld r x).slot y = s.slot y := by simp [toHeld, h]
@[simp] theorem config_toHeld (y : SlotNo) : ((s.toHeld r x).slot y).config = (s.slot y).config := by simp [toHeld]
@[simp] theorem line_toHeld (l : LineNo) : (s.toHeld r x).line l = s.line l := rfl
@[simp] theorem list_toHeld : (s.toHeld r x).list r = (s.list r).erase x := by simp [toHeld]
@[simp] theorem list_toHeld_ne {q : ListRef} (h : q ≠ r) : (s.toHeld r x).list q = s.list q := by simp [toHeld, h]
@[simp] theorem reports_toHeld : (s.toHeld r x).reports = s.reports := rfl

variable (cut : Bool) (aux : Aux)

@[simp] theorem slot_cancelSlot : (s.cancelSlot r x cut aux).slot x = { s.slot x with run := .held } := by
  cases cut <;> simp [cancelSlot]

@[simp] theorem slot_cancelSlot_ne {y : SlotNo} (h : y ≠ x) : (s.cancelSlot r x cut aux).slot y = s.slot y := by
  cases cut <;> simp [cancelSlot, h]

@[simp] theorem list_cancelSlot : (s.cancelSlot r x cut aux).list r = (s.list r).erase x := by
  cases cut <;> simp [cancelSlot]

@[simp] theorem list_cancelSlot_ne {q : ListRef} (h : q ≠ r) : (s.cancelSlot r x cut aux).list q = s.list q := by
  cases cut <;> simp [cancelSlot, h]

/-- The line of a cancelled slot is cut where CUT is asked, and then released (R66, R67). -/
theorem line_cancelSlot (l : LineNo) :
    (s.cancelSlot r x cut aux).line l =
      if (s.slot x).config.action ≠ .none ∧ l = (s.slot x).config.line then
        (if cut then (s.line l).cut x else s.line l).released x
      else s.line l := by
  cases cut <;> simp [cancelSlot, line_releaseLine, line_cutLine]
  split <;> simp_all

theorem reports_cancelSlot :
    (s.cancelSlot r x cut aux).reports =
      if (s.slot x).config.reportEnable then s.reports.append (s.disarmReport x .cancelled aux) else s.reports := by
  cases cut <;> simp [cancelSlot, reports_postIf]

@[simp] theorem slot_stopSlot : (s.stopSlot r x).slot x = { s.slot x with run := .held } := by simp [stopSlot]
@[simp] theorem slot_stopSlot_ne {y : SlotNo} (h : y ≠ x) : (s.stopSlot r x).slot y = s.slot y := by
  simp [stopSlot, h]
@[simp] theorem list_stopSlot : (s.stopSlot r x).list r = (s.list r).erase x := by simp [stopSlot]
@[simp] theorem list_stopSlot_ne {q : ListRef} (h : q ≠ r) : (s.stopSlot r x).list q = s.list q := by
  simp [stopSlot, h]
@[simp] theorem line_stopSlot (l : LineNo) : (s.stopSlot r x).line l = s.line l := by simp [stopSlot]

theorem reports_stopSlot :
    (s.stopSlot r x).reports =
      if (s.slot x).config.reportEnable then s.reports.append (s.disarmReport x .stopped .none) else s.reports := by
  simp [stopSlot, reports_postIf]

end

end State

end Sys2Proof.Machine
end

