-- ==== Sys2Proof/Laws/Arming.lean ====
section
/-! SUPPORT. The arm attempt, the chain attempt and wait arming: everything each can answer (R54 to R59, R73); and the
runs of disarms of a wait list and of the stop (R111, R169). -/

namespace Sys2Proof.Machine.State

variable (s : State)

/-! ## The claim of a slot that passes the checks -/

/-- The state with the line of slot `x` claimed for it; a slot whose action is NONE claims none (R54, R91). -/
def withClaim (x : SlotNo) : State :=
  if (s.slot x).config.action = .none then s
  else s.setLine (s.slot x).config.line ((s.line (s.slot x).config.line).granted x)

section

variable (x : SlotNo)

@[simp] theorem slot_withClaim (y : SlotNo) : (s.withClaim x).slot y = s.slot y := by
  unfold withClaim; split <;> rfl
@[simp] theorem list_withClaim (r : ListRef) : (s.withClaim x).list r = s.list r := by
  unfold withClaim; split <;> rfl
@[simp] theorem slots_withClaim : (s.withClaim x).slots = s.slots := by unfold withClaim; split <;> rfl
@[simp] theorem sched_withClaim : (s.withClaim x).sched = s.sched := by unfold withClaim; split <;> rfl
@[simp] theorem reports_withClaim : (s.withClaim x).reports = s.reports := by unfold withClaim; split <;> rfl
@[simp] theorem now_withClaim (tb : Timebase) : (s.withClaim x).now tb = s.now tb := by
  unfold withClaim; split
  · rfl
  · exact now_setLine ..

theorem line_withClaim (l : LineNo) :
    (s.withClaim x).line l =
      if (s.slot x).config.action ≠ .none ∧ l = (s.slot x).config.line then (s.line l).granted x else s.line l := by
  unfold withClaim
  split
  · simp_all
  · rw [line_setLine_if]
    by_cases h : l = (s.slot x).config.line
    · subst h; simp_all
    · simp_all

/-- The line check passes: the action is NONE, or no other slot is the holding owner (R54, R91). -/
abbrev LineFree : Prop := (s.slot x).config.action = .none ∨ s.claimRefused x (s.slot x).config.line = false

/-- The four checks of Table 4-2, in their order: the outcome of the first that fails, or the claim. -/
theorem passChecks_cases (mode : ArmMode) :
    (s.stop.level = .low ∧ s.passChecks mode x = .error .stopped) ∨
    (s.stop.level = .high ∧ (s.slot x).run.state ≠ .held ∧ s.passChecks mode x = .error .notHeld) ∨
    (s.stop.level = .high ∧ (s.slot x).run.state = .held ∧ (s.slot x).config.badOffset mode = true ∧
      s.passChecks mode x = .error .badOffset) ∨
    (s.stop.level = .high ∧ (s.slot x).run.state = .held ∧ (s.slot x).config.badOffset mode = false ∧
      ¬ s.LineFree x ∧ s.passChecks mode x = .error .lineBusy) ∨
    (s.stop.level = .high ∧ (s.slot x).run.state = .held ∧ (s.slot x).config.badOffset mode = false ∧
      s.LineFree x ∧ s.passChecks mode x = .ok (s.withClaim x)) := by
  simp only [passChecks, armRefusal]
  by_cases hs : s.stop.level = .low
  · have ha : s.stopAsserted = true := by simp [stopAsserted, hs]
    exact .inl ⟨hs, by simp [ha]⟩
  · have ha : s.stopAsserted = false := by simp [stopAsserted, hs]
    have hh : s.stop.level = .high := by cases h : s.stop.level <;> simp_all
    by_cases h1 : (s.slot x).run.state = .held
    · cases h2 : (s.slot x).config.badOffset mode with
      | true => simp [h1, ha, hh]
      | false =>
        rcases s.claimFor_cases x with ⟨h3, h4⟩ | ⟨h3, h4, h5⟩ | ⟨h3, h4, h5⟩
        · simp [h1, h4, h3, LineFree, withClaim, ha, hh]
        · simp [h1, h3, h4, h5, LineFree, ha, hh]
        · simp [h1, h3, h4, h5, LineFree, withClaim, ha, hh]
    · simp [h1, ha, hh]

end

/-! ## The attempts -/

/-- The arm attempt in absolute or relative mode: a failed check, an insertion, an immediate fire, or a drop (R53 to
R58). -/
theorem armAttempt_cases (mode : ArmMode) (x : SlotNo) :
    (∃ o, s.passChecks mode x = .error o ∧ s.armAttempt mode x = ⟨o, s⟩) ∨
    (s.passChecks mode x = .ok (s.withClaim x) ∧
      ((reached (s.now (s.slot x).config.timebase) (s.armDue mode x) = false ∧
          s.armAttempt mode x = ⟨.none, (s.withClaim x).armInto x (s.armDue mode x)⟩) ∨
        (reached (s.now (s.slot x).config.timebase) (s.armDue mode x) = true ∧
          (s.armDue mode x = s.now (s.slot x).config.timebase ∨ (s.slot x).config.latePolicy = .fire) ∧
          s.armAttempt mode x =
            ⟨.none, ((s.withClaim x).setRun x ((s.slot x).config.armedRun (s.armDue mode x))).fire x
              (if s.armDue mode x = s.now (s.slot x).config.timebase then .fired else .late) false⟩) ∨
        (reached (s.now (s.slot x).config.timebase) (s.armDue mode x) = true ∧
          s.armDue mode x ≠ s.now (s.slot x).config.timebase ∧ (s.slot x).config.latePolicy = .drop ∧
          s.armAttempt mode x =
            ⟨.dropped, (s.withClaim x).dropLate x (s.armDue mode x) (s.line (s.slot x).config.line).owner⟩))) := by
  have hp : (∃ o, s.passChecks mode x = .error o) ∨ s.passChecks mode x = .ok (s.withClaim x) := by
    rcases s.passChecks_cases x mode with ⟨_, h⟩ | ⟨_, _, h⟩ | ⟨_, _, _, h⟩ | ⟨_, _, _, _, h⟩ | ⟨_, _, _, _, h⟩
    · exact .inl ⟨_, h⟩
    · exact .inl ⟨_, h⟩
    · exact .inl ⟨_, h⟩
    · exact .inl ⟨_, h⟩
    · exact .inr h
  rcases hp with ⟨o, h⟩ | h
  · exact .inl ⟨o, h, by simp [armAttempt, h]⟩
  · refine .inr ⟨h, ?_⟩
    simp only [armAttempt, h]
    cases hr : reached (s.now (s.slot x).config.timebase) (s.armDue mode x)
    · exact .inl ⟨rfl, by simp⟩
    · by_cases hd : s.armDue mode x = s.now (s.slot x).config.timebase
      · exact .inr (.inl ⟨rfl, .inl hd, by simp [hd]⟩)
      · cases hl : (s.slot x).config.latePolicy
        · exact .inr (.inl ⟨rfl, .inr rfl, by simp [hd]⟩)
        · exact .inr (.inr ⟨rfl, hd, rfl, by simp [hd]⟩)

/-- The chain attempt: a failed check, or an insertion one chain offset after the successor's counter (R55, R73). -/
theorem chainAttempt_cases (y : SlotNo) :
    (∃ o, s.passChecks .chain y = .error o ∧ s.chainAttempt y = .error o) ∨
    (s.passChecks .chain y = .ok (s.withClaim y) ∧
      s.chainAttempt y =
        .ok ((s.withClaim y).armInto y (s.now (s.slot y).config.timebase + (s.slot y).config.offset))) := by
  rcases s.passChecks_cases y .chain with ⟨_, h⟩ | ⟨_, _, h⟩ | ⟨_, _, _, h⟩ | ⟨_, _, _, _, h⟩ | ⟨_, _, _, _, h⟩
  · exact .inl ⟨_, h, by simp [chainAttempt, h]⟩
  · exact .inl ⟨_, h, by simp [chainAttempt, h]⟩
  · exact .inl ⟨_, h, by simp [chainAttempt, h]⟩
  · exact .inl ⟨_, h, by simp [chainAttempt, h]⟩
  · exact .inr ⟨h, by simp [chainAttempt, h]⟩

/-- Wait arming: a failed check, or the tail of the wait list (R59). -/
theorem waitArm_cases (x : SlotNo) (t : TrigNo) :
    (∃ o, s.passChecks .relative x = .error o ∧ s.waitArm x t = ⟨o, s⟩) ∨
    (s.passChecks .relative x = .ok (s.withClaim x) ∧
      s.waitArm x t =
        ⟨.none, ((s.withClaim x).setRun x ((s.slot x).config.waitingRun t)).setList (.wait t)
          (s.list (.wait t) ++ [x])⟩) := by
  rcases s.passChecks_cases x .relative with ⟨_, h⟩ | ⟨_, _, h⟩ | ⟨_, _, _, h⟩ | ⟨_, _, _, _, h⟩ | ⟨_, _, _, _, h⟩
  · exact .inl ⟨_, h, by simp [waitArm, h]⟩
  · exact .inl ⟨_, h, by simp [waitArm, h]⟩
  · exact .inl ⟨_, h, by simp [waitArm, h]⟩
  · exact .inl ⟨_, h, by simp [waitArm, h]⟩
  · exact .inr ⟨h, by simp [waitArm, h]⟩

/-! ## Insertion -/

section

variable (x : SlotNo) (due : Word)

@[simp] theorem slot_armInto :
    (s.armInto x due).slot x = { s.slot x with run := (s.slot x).config.armedRun due } := by simp [armInto]
@[simp] theorem slot_armInto_ne {y : SlotNo} (h : y ≠ x) : (s.armInto x due).slot y = s.slot y := by
  simp [armInto, h]
@[simp] theorem line_armInto (l : LineNo) : (s.armInto x due).line l = s.line l := rfl
@[simp] theorem reports_armInto : (s.armInto x due).reports = s.reports := rfl
@[simp] theorem now_armInto (tb : Timebase) : (s.armInto x due).now tb = s.now tb :=
  (s.armInto_schedStep x due).now tb

/-- The slot stands in its due list at the place of its distance, measured with its new due point (R50). -/
theorem list_armInto :
    (s.armInto x due).list (.due (s.slot x).config.timebase) =
      insertByDistance ((s.armInto x due).distanceOn (s.slot x).config.timebase) x
        (s.list (.due (s.slot x).config.timebase)) := by
  have h : ((s.setRun x ((s.slot x).config.armedRun due)).insertDue (s.slot x).config.timebase x).distanceOn
      (s.slot x).config.timebase =
      (s.setRun x ((s.slot x).config.armedRun due)).distanceOn (s.slot x).config.timebase := by
    funext y; simp [distanceOn]
  simp only [armInto, list_insertDue, list_setRun, h]

@[simp] theorem list_armInto_ne {r : ListRef} (h : r ≠ .due (s.slot x).config.timebase) :
    (s.armInto x due).list r = s.list r := by simp [armInto, h]

end

/-! ## Runs of disarms -/

/-- After a run of disarms of a list the slots of the run are HELD and out of the list, and no other slot or list is
reached (R66, R111). -/
theorem cancelRun (r : ListRef) (aux : Aux) (xs : List SlotNo) (hx : xs.Nodup) :
    (∀ y, (xs.foldl (fun t x => t.cancelSlot r x false aux) s).slot y =
      if y ∈ xs then { s.slot y with run := .held } else s.slot y) ∧
    (xs.foldl (fun t x => t.cancelSlot r x false aux) s).list r = (s.list r).diff xs ∧
    ∀ q, q ≠ r → (xs.foldl (fun t x => t.cancelSlot r x false aux) s).list q = s.list q := by
  induction xs generalizing s with
  | nil => simp
  | cons x xs ih =>
    obtain ⟨h1, h2⟩ := List.nodup_cons.1 hx
    obtain ⟨i1, i2, i3⟩ := ih (s.cancelSlot r x false aux) h2
    simp only [List.foldl_cons]
    refine ⟨fun y => ?_, ?_, fun q hq => ?_⟩
    · rw [i1 y]
      by_cases hy : y = x
      · subst hy; simp [h1]
      · simp [hy]
    · rw [i2, list_cancelSlot, List.diff_cons]
    · rw [i3 q hq]; simp [hq]

/-- The same of the disarms of the STOP# assertion, which reach no line (R66, R169). -/
theorem stopRun (r : ListRef) (xs : List SlotNo) (hx : xs.Nodup) :
    (∀ y, (xs.foldl (fun t x => t.stopSlot r x) s).slot y =
      if y ∈ xs then { s.slot y with run := .held } else s.slot y) ∧
    (xs.foldl (fun t x => t.stopSlot r x) s).list r = (s.list r).diff xs ∧
    (∀ q, q ≠ r → (xs.foldl (fun t x => t.stopSlot r x) s).list q = s.list q) ∧
    ∀ l, (xs.foldl (fun t x => t.stopSlot r x) s).line l = s.line l := by
  induction xs generalizing s with
  | nil => simp
  | cons x xs ih =>
    obtain ⟨h1, h2⟩ := List.nodup_cons.1 hx
    obtain ⟨i1, i2, i3, i4⟩ := ih (s.stopSlot r x) h2
    simp only [List.foldl_cons]
    refine ⟨fun y => ?_, ?_, fun q hq => ?_, fun l => ?_⟩
    · rw [i1 y]
      by_cases hy : y = x
      · subst hy; simp [h1]
      · simp [hy]
    · rw [i2, list_stopSlot, List.diff_cons]
    · rw [i3 q hq]; simp [hq]
    · rw [i4 l]; simp

end Sys2Proof.Machine.State
end

