-- ==== Sys2Proof/Laws/Exec.lean ====
section
/-! SUPPORT. What a command does, once for each: the state after it while RESET# is released, and no change while it is
held. -/

namespace Sys2Proof.Machine

variable {s : State}

/-- A step that is taken while RESET# is released. -/
theorem unlessHeld_released {u : State} (h : s.resetHeld = false) :
    (.next (if s.resetHeld then s else u) : Host.Outcome State Fault Refusal) = .next u := by
  simp [h]

/-- A step that RESET# holds off (R182). -/
theorem unlessHeld_held {u : State} (h : s.resetHeld = true) :
    (.next (if s.resetHeld then s else u) : Host.Outcome State Fault Refusal) = .next s := by
  simp [h]

/-! ## Events of the machine side -/

theorem exec_baseTick (h : s.resetHeld = false) : exec .baseTick s = .next s.restartTick.lineTick.trigTick :=
  unlessHeld_released h

theorem exec_advance_tb0 (b : Bool) (h : s.resetHeld = false) :
    exec (.advance (.tb0 b)) s = .next (s.advance .tb0 (!b)) := unlessHeld_released h

theorem exec_advance_tb1 (h : s.resetHeld = false) : exec (.advance .tb1) s = .next s.cntRise :=
  unlessHeld_released h

theorem exec_pulseEnd (h : s.resetHeld = false) : exec .pulseEnd s = .next s.lineTick := unlessHeld_released h

theorem exec_lockoutWindowClose (h : s.resetHeld = false) : exec .lockoutWindowClose s = .next s.trigTick :=
  unlessHeld_released h

theorem exec_triggerEdge (t : TrigNo) (v : Level) (h : s.resetHeld = false) :
    exec (.triggerEdge t v) s = .next (s.trigSample t v) := unlessHeld_released h

theorem exec_stopAssertion (h : s.resetHeld = false) : exec .stopAssertion s = .next s.assertStop :=
  unlessHeld_released h

theorem exec_stopRelease (h : s.resetHeld = false) : exec .stopRelease s = .next s.releaseStop :=
  unlessHeld_released h

theorem exec_stopSample (v : Level) (h : s.resetHeld = false) : exec (.stopSample v) s = .next (s.stopSampled v) :=
  unlessHeld_released h

theorem exec_cntEdge (v : Level) (h : s.resetHeld = false) : exec (.cntEdge v) s = .next (s.cntSample v) :=
  unlessHeld_released h

/-! ## Bus cycles -/

theorem exec_recordPortWrite (b : Byte) (h : s.resetHeld = false) :
    exec (.recordPortWrite b) s = .next (s.recordWrite b) := unlessHeld_released h

theorem exec_recordPortRead (h : s.resetHeld = false) :
    exec .recordPortRead s = .next (s.recordRead.withReadData (some s.recordByte)) := unlessHeld_released h

theorem exec_writeCursor (b : Byte) (h : s.resetHeld = false) : exec (.writeCursor b) s = .next (s.setWriteCursor b) :=
  unlessHeld_released h

theorem exec_readCursor (b : Byte) (h : s.resetHeld = false) : exec (.readCursor b) s = .next (s.setReadCursor b) :=
  unlessHeld_released h

theorem exec_transferPortRead (h : s.resetHeld = false) :
    exec .transferPortRead s = .next (s.transferRead.withReadData (some s.transferByte)) := unlessHeld_released h

theorem exec_transferPortWrite (b : Byte) (h : s.resetHeld = false) :
    exec (.transferPortWrite b) s = .next (s.transferWrite b) := unlessHeld_released h

theorem exec_statusRead (h : s.resetHeld = false) :
    exec .statusRead s = .next (s.statusCleared.withReadData (some s.statusByte)) := unlessHeld_released h

theorem exec_abort (h : s.resetHeld = false) : exec .abort s = .next s.abortCommand := unlessHeld_released h

theorem exec_softReset (h : s.resetHeld = false) : exec .softReset s = .next s.softReset := unlessHeld_released h

theorem exec_intEnable (b : Byte) (h : s.resetHeld = false) : exec (.intEnable b) s = .next (s.setIntEnable b) :=
  unlessHeld_released h

theorem exec_watermark (b : Byte) (h : s.resetHeld = false) : exec (.watermark b) s = .next (s.setWatermark b) :=
  unlessHeld_released h

theorem exec_registerWrite (a : Addr) (b : Byte) (h : s.resetHeld = false) :
    exec (.registerWrite a b) s = .next (s.busWrite a b) := unlessHeld_released h

/-! ## Codes written at COMMAND, and the events of the engine -/

/-- Every row that is a write at COMMAND is that write. -/
theorem exec_codeOfRow {i : Instr} {b : Byte} (hi : codeOfRow i = some b) (h : s.resetHeld = false) :
    exec i s = .next (s.writeCommand b) := by
  cases i <;> first | cases hi; exact unlessHeld_released h | cases hi

theorem exec_completion (h : s.resetHeld = false) : exec .completion s = .next s.completionEvent :=
  unlessHeld_released h

theorem exec_blockPreparation (h : s.resetHeld = false) : exec .blockPreparation s = .next s.preparationEvent :=
  unlessHeld_released h

theorem exec_blockOpening (h : s.resetHeld = false) : exec .blockOpening s = .next s.openingEvent :=
  unlessHeld_released h

theorem exec_blockProcessing (h : s.resetHeld = false) : exec .blockProcessing s = .next s.processingEvent :=
  unlessHeld_released h

/-- While RESET# is held a read drives no data (R182). -/
@[simp] theorem State.quietRead_held (a : Addr) (h : s.resetHeld = true) : s.quietRead a = none := by
  simp [State.quietRead, h]

/-- While RESET# is released a read returns the register's byte (R175). -/
@[simp] theorem State.quietRead_released (a : Addr) (h : s.resetHeld = false) : s.quietRead a = s.registerByte a := by
  simp [State.quietRead, h]

/-- While RESET# is held every command but the two of RESET# leaves the state (R182). -/
theorem exec_held {i : Instr} (h : s.resetHeld = true) (h1 : i ≠ .resetAssertion)
    (h2 : ∀ pins, i ≠ .resetRelease pins) : exec i s = .next s := by
  cases i with
  | resetAssertion => exact absurd rfl h1
  | resetRelease pins => exact absurd rfl (h2 pins)
  | advance a => cases a <;> exact unlessHeld_held h
  | _ => exact unlessHeld_held h

end Sys2Proof.Machine
end

