-- ==== Sys2Proof/Laws/Engine.lean ====
section
/-! SUPPORT. The command engine: what an accepted command leaves, and the completion of a command without a transfer
phase as one equation; the operands of a command as numbers. -/

namespace Sys2Proof

@[simp] theorem commandOf_code (c : Command) : commandOf c.code = some c := by cases c <;> rfl

/-- A code names one command only. -/
theorem code_of_commandOf : ∀ (b : Byte) (c : Command), commandOf b = some c → b = c.code := by
  have h : ∀ b : Byte, ∀ c ∈ (commandOf b).toList, b = c.code := by decide
  intro b c hc
  exact h b c (by simp [hc])

namespace Machine

/-! ## Bytes as numbers -/

theorem byteOf_word (w : Word) :
    w.toNat = (byteOf w 0).toNat + 2 ^ 8 * (byteOf w 1).toNat + 2 ^ 16 * (byteOf w 2).toNat +
      2 ^ 24 * (byteOf w 3).toNat := by
  simp [byteOf, Nat.shiftRight_eq_div_pow]; omega

theorem byteOf_half (w : Half) : w.toNat = (byteOf w 0).toNat + 2 ^ 8 * (byteOf w 1).toNat := by
  simp [byteOf, Nat.shiftRight_eq_div_pow]; omega

theorem append_byte_toNat {n : Nat} (a : BitVec n) (b : Byte) : (a ++ b).toNat = 2 ^ 8 * a.toNat + b.toNat := by
  rw [BitVec.toNat_append, Nat.shiftLeft_eq, Nat.mul_comm]
  exact (Nat.two_pow_add_eq_or_of_lt b.isLt _).symm

theorem halfOf_toNat (a b : Byte) : (halfOf a b).toNat = a.toNat + 2 ^ 8 * b.toNat := by
  simp only [halfOf, append_byte_toNat]; omega

theorem wordOf_toNat (a b c d : Byte) :
    (wordOf a b c d).toNat = a.toNat + 2 ^ 8 * b.toNat + 2 ^ 16 * c.toNat + 2 ^ 24 * d.toNat := by
  simp only [wordOf, append_byte_toNat]; omega

theorem slotOf_none {b : Byte} (h : 128 ≤ b.toNat) : slotOf b = none := by simp [slotOf]; omega
theorem lineOf_none {b : Byte} (h : 16 ≤ b.toNat) : lineOf b = none := by simp [lineOf]; omega
theorem trigOf_none {b : Byte} (h : 4 ≤ b.toNat) : trigOf b = none := by simp [trigOf]; omega
theorem slotOf_some {b : Byte} {x : SlotNo} (h : b.toNat = x.val) : slotOf b = some x := by simp [slotOf, h]
theorem lineOf_some {b : Byte} {l : LineNo} (h : b.toNat = l.val) : lineOf b = some l := by simp [lineOf, h]
theorem trigOf_some {b : Byte} {n : TrigNo} (h : b.toNat = n.val) : trigOf b = some n := by simp [trigOf, h]

/-! ## Acceptance and completion -/

/-- The engine after the acceptance of a code, with the snapshot taken (R129). -/
def Engine.accepted (e : Engine) (b : Byte) (snapshot : List DueEntry) : Engine :=
  { e with
    current := some { code := b, params := e.params }
    phase := .engine
    err := false
    cmdp := false
    error := .none
    remain := if counted (commandOf b) then e.params.count else 0
    snapshot := snapshot
    delivered := 0 }

/-- The state after the acceptance of a code (R129). -/
def State.accepted (s : State) (b : Byte) : State := s.withEngine (s.engine.accepted b (s.snapshotAt b))

section

variable {s : State} {b : Byte}

theorem writeCommand_idle (h : s.engine.phase = .idle) : s.writeCommand b = s.accepted b := if_pos h

theorem writeCommand_busy (h : s.engine.phase ≠ .idle) :
    s.writeCommand b = s.withEngine { s.engine with rej := true } := if_neg h

@[simp] theorem command_accepted : (s.accepted b).engine.command = commandOf b := rfl
@[simp] theorem latched_accepted : (s.accepted b).engine.latched = s.engine.params := rfl
@[simp] theorem slot_accepted (x : SlotNo) : (s.accepted b).slot x = s.slot x := rfl
@[simp] theorem line_accepted (l : LineNo) : (s.accepted b).line l = s.line l := rfl
@[simp] theorem trig_accepted (n : TrigNo) : (s.accepted b).trig n = s.trig n := rfl
@[simp] theorem list_accepted (r : ListRef) : (s.accepted b).list r = s.list r := rfl
@[simp] theorem now_accepted (tb : Timebase) : (s.accepted b).now tb = s.now tb := by cases tb <;> rfl
@[simp] theorem stop_accepted : (s.accepted b).stop = s.stop := rfl

/-- A code that names no transfer command. -/
abbrev Plain (b : Byte) : Prop :=
  commandOf b ≠ some .armBatch ∧ commandOf b ≠ some .readReports ∧ commandOf b ≠ some .readDueList

/-- After the acceptance of a command without a transfer phase its completion is pending (R129). -/
theorem pendingEvent_accepted (h : Plain b) : (s.accepted b).engine.pendingEvent = .completion := by
  have hp : (s.accepted b).engine.phase = .engine := rfl
  simp only [Engine.pendingEvent, hp, if_true, command_accepted]
  obtain ⟨h1, h2, h3⟩ := h
  split <;> simp_all

/-- Its completion event is its effect at the owning block, then the end of the command (R132). -/
theorem completionEvent_accepted (h : Plain b) :
    (s.accepted b).completionEvent = (s.accepted b).complete.state.finish (s.accepted b).complete.error :=
  if_pos (pendingEvent_accepted h)

/-- The engine is not reached by a scheduler operation, so the end of a command is one update of it. -/
theorem finish_accepted (h : Plain b) (err : ErrorCode) :
    (s.accepted b).finish err =
      s.withEngine
        { s.engine.finish err with remain := 0 } := by
  obtain ⟨h1, h2, h3⟩ := h
  have hc : counted (commandOf b) = false := by simp [counted, h1, h2, h3]
  simp [State.finish, State.accepted, Engine.accepted, Engine.finish, hc]

end

end Machine

end Sys2Proof
end

