-- ==== Sys2Proof/WellFormed.lean ====
section
/-! DEFINITION. Which commands name what their row is about. An ill-formed command still has a meaning: it is
the bus write that it spells, which another row names (notes/assumptions/10.md). -/

namespace Sys2Proof

/-- An address whose write has no row of its own in the opcode table: CURSOR STATE, the parameter registers, the
read-only registers and 18h–1Fh, and CONTROL written with neither ABORT nor SRST (Table 12-1, R177). -/
def plainWrite (addr : Addr) (data : Byte) : Bool :=
  decide (addr = 0x03 ∨ (0x05 ≤ addr ∧ addr ≤ 0x0D) ∨ 0x12 ≤ addr) ||
    (decide (addr = 0x0F) && !data.getLsbD 0 && !data.getLsbD 1)

/-- A command is well formed unless it is a REGISTER_WRITE of a register that has a row of its own, or a
BAD_COMMAND whose code names a command. -/
def WellFormed : Instr → Bool
  | .registerWrite a d => plainWrite a d
  | .badCommand b => (commandOf b).isNone
  | .baseTick | .advance _ | .pulseEnd | .lockoutWindowClose | .triggerEdge _ _ | .stopAssertion | .stopRelease
  | .resetAssertion | .resetRelease _ | .recordPortWrite _ | .recordPortRead | .writeCursor _ | .readCursor _
  | .transferPortRead | .transferPortWrite _ | .statusRead | .abort | .softReset | .intEnable _ | .watermark _
  | .nop | .arm | .armOnTrigger | .cancel | .release | .armBatch | .readReports | .clearReports | .readDueList
  | .setTimebase | .holdTimebase | .resumeTimebase | .readTime | .setTick | .configureLine | .forceLine
  | .queryLine | .configureTrigger | .flushTrigger | .queryTrigger | .setBlock | .completion | .blockPreparation
  | .blockOpening | .blockProcessing | .cntEdge _ | .stopSample _ => true

end Sys2Proof
end

