-- ==== Sys2Proof/Laws/PerInstr.lean ====
section
/-! SUPPORT. For every row: where it is a write of a code at COMMAND, the code names that row and no other
(Table 12-11, R129). -/

namespace Sys2Proof.Laws.CommandCode

/-- A well-formed row that writes a code at COMMAND is the row that the code names. -/
def Statement (i : Instr) : Prop := ∀ b, codeOfRow i = some b → WellFormed i = true → rowOfCode b = i

theorem baseTick : Statement .baseTick := by rintro _ ⟨⟩
theorem advance (source : AdvanceOf) : Statement (.advance source) := by rintro _ ⟨⟩
theorem pulseEnd : Statement .pulseEnd := by rintro _ ⟨⟩
theorem lockoutWindowClose : Statement .lockoutWindowClose := by rintro _ ⟨⟩
theorem triggerEdge (t : TrigNo) (level : Level) : Statement (.triggerEdge t level) := by rintro _ ⟨⟩
theorem stopAssertion : Statement .stopAssertion := by rintro _ ⟨⟩
theorem stopRelease : Statement .stopRelease := by rintro _ ⟨⟩
theorem resetAssertion : Statement .resetAssertion := by rintro _ ⟨⟩
theorem resetRelease (pins : PinLevels) : Statement (.resetRelease pins) := by rintro _ ⟨⟩
theorem recordPortWrite (data : Byte) : Statement (.recordPortWrite data) := by rintro _ ⟨⟩
theorem recordPortRead : Statement .recordPortRead := by rintro _ ⟨⟩
theorem writeCursor (data : Byte) : Statement (.writeCursor data) := by rintro _ ⟨⟩
theorem readCursor (data : Byte) : Statement (.readCursor data) := by rintro _ ⟨⟩
theorem transferPortRead : Statement .transferPortRead := by rintro _ ⟨⟩
theorem transferPortWrite (data : Byte) : Statement (.transferPortWrite data) := by rintro _ ⟨⟩
theorem statusRead : Statement .statusRead := by rintro _ ⟨⟩
theorem abort : Statement .abort := by rintro _ ⟨⟩
theorem softReset : Statement .softReset := by rintro _ ⟨⟩
theorem intEnable (data : Byte) : Statement (.intEnable data) := by rintro _ ⟨⟩
theorem watermark (data : Byte) : Statement (.watermark data) := by rintro _ ⟨⟩
theorem registerWrite (addr : Addr) (data : Byte) : Statement (.registerWrite addr data) := by rintro _ ⟨⟩
theorem nop : Statement .nop := by rintro _ ⟨⟩ _; rfl
theorem arm : Statement .arm := by rintro _ ⟨⟩ _; rfl
theorem armOnTrigger : Statement .armOnTrigger := by rintro _ ⟨⟩ _; rfl
theorem cancel : Statement .cancel := by rintro _ ⟨⟩ _; rfl
theorem release : Statement .release := by rintro _ ⟨⟩ _; rfl
theorem armBatch : Statement .armBatch := by rintro _ ⟨⟩ _; rfl
theorem readReports : Statement .readReports := by rintro _ ⟨⟩ _; rfl
theorem clearReports : Statement .clearReports := by rintro _ ⟨⟩ _; rfl
theorem readDueList : Statement .readDueList := by rintro _ ⟨⟩ _; rfl
theorem setTimebase : Statement .setTimebase := by rintro _ ⟨⟩ _; rfl
theorem holdTimebase : Statement .holdTimebase := by rintro _ ⟨⟩ _; rfl
theorem resumeTimebase : Statement .resumeTimebase := by rintro _ ⟨⟩ _; rfl
theorem readTime : Statement .readTime := by rintro _ ⟨⟩ _; rfl
theorem setTick : Statement .setTick := by rintro _ ⟨⟩ _; rfl
theorem configureLine : Statement .configureLine := by rintro _ ⟨⟩ _; rfl
theorem forceLine : Statement .forceLine := by rintro _ ⟨⟩ _; rfl
theorem queryLine : Statement .queryLine := by rintro _ ⟨⟩ _; rfl
theorem configureTrigger : Statement .configureTrigger := by rintro _ ⟨⟩ _; rfl
theorem flushTrigger : Statement .flushTrigger := by rintro _ ⟨⟩ _; rfl
theorem queryTrigger : Statement .queryTrigger := by rintro _ ⟨⟩ _; rfl
theorem setBlock : Statement .setBlock := by rintro _ ⟨⟩ _; rfl
theorem badCommand (code : Byte) : Statement (.badCommand code) := by
  intro b h hw
  cases h
  cases hc : commandOf code with
  | none => simp [rowOfCode, hc]
  | some c => simp [WellFormed, hc] at hw
theorem completion : Statement .completion := by rintro _ ⟨⟩
theorem blockPreparation : Statement .blockPreparation := by rintro _ ⟨⟩
theorem blockOpening : Statement .blockOpening := by rintro _ ⟨⟩
theorem blockProcessing : Statement .blockProcessing := by rintro _ ⟨⟩
theorem cntEdge (level : Level) : Statement (.cntEdge level) := by rintro _ ⟨⟩
theorem stopSample (level : Level) : Statement (.stopSample level) := by rintro _ ⟨⟩

end Sys2Proof.Laws.CommandCode
end

