-- ==== Sys2Proof/Tests/Slice0.lean ====
section
/-! SUPPORT. The model's own tests, each by `decide` on a small state: the well-formedness smoke test, the codes of
COMMAND, one step of each command with a result taken from the manual, and for every statement of
Certificates/Slice0/Obligations.lean a state and operands that meet its hypotheses. -/

namespace Sys2Proof.Tests

open Sys2Proof.Machine Sys2Proof.Claims

/-! ## Helpers -/

/-- The state after a command. -/
def run (i : Instr) (s : State) : State :=
  match exec i s with
  | .next t => t
  | .fault _ => s
  | .refused _ => s

/-- The state after a list of commands. -/
def runs (is : List Instr) (s : State) : State := is.foldl (fun t i => run i t) s

/-- The parameter registers, VALUE1 to VALUE3 at 0. -/
def par (pSlot option count value0 : Byte) : Params :=
  { Params.zero with pSlot := pSlot, option := option, count := count, value0 := value0 }

/-- These parameters in the registers. -/
def params (p : Params) (s : State) : State := s.withEngine { s.engine with params := p }

/-- A command in progress, in the given phase. -/
def busy (code : Byte) (p : Params) (ph : Phase) (s : State) : State :=
  s.withEngine { s.engine with current := some { code := code, params := p }, phase := ph }

/-- Parameter registers that no command in progress has latched. -/
def other : Params :=
  { pSlot := 0xFF, option := 0xFF, count := 0xFF, value0 := 0xFF, value1 := 0xFF, value2 := 0xFF, value3 := 0xFF }

/-- A command in the ENGINE phase with these latched parameters, the registers written over since (R128). -/
def serving (code : Byte) (p : Params) (s : State) : State := busy code p .engine (params other s)

theorem serving_executing {code : Byte} {p : Params} {s : State} (h : s.resetHeld = false) :
    Executing (serving code p s) code p := ⟨h, rfl, rfl⟩

/-- A timer: action NONE, one-shot, reports enabled. -/
def timer (offset : Word) : SlotConfig := { SlotConfig.zero with offset := offset, reportEnable := true }

/-- A PULSE slot on a line (the ejector of 6.7). -/
def pulser (line : LineNo) (width : Half) (offset : Word) : SlotConfig :=
  { timer offset with action := .pulse, line := line, width := width }

/-- A HELD slot. -/
def hold (x : SlotNo) (c : SlotConfig) (s : State) : State := s.setSlot x { config := c, run := .held }

/-- A slot ARMED with this run part and inserted; where it has an action it owns its line. -/
def armed (x : SlotNo) (c : SlotConfig) (r : RunPart) (s : State) : State :=
  let t := (s.setSlot x { config := c, run := r }).insertDue c.timebase x
  if c.action = .none then t else t.setLine c.line { t.line c.line with owner := some x }

/-- A slot WAITING on a trigger, at the tail of its list. -/
def waiting (x : SlotNo) (c : SlotConfig) (n : TrigNo) (s : State) : State :=
  (s.setSlot x { config := c, run := c.waitingRun n }).setList (.wait n) (s.list (.wait n) ++ [x])

/-- The base ticks and CNT edges counted so far. -/
def clocks (c0 c1 : Word) (s : State) : State :=
  s.withTimebase
    { s.timebase with tb0 := { s.timebase.tb0 with count := c0 }, tb1 := { s.timebase.tb1 with count := c1 } }

/-- The bytes of a write image at RECORD PORT. -/
def writes (bs : List Byte) : List Instr := bs.map .recordPortWrite

/-- The report of 12.3.1. -/
def report17 : Report where
  kind := .fired
  flags := { timebase := .tb1, overlap := true, final := false, noSlot := false, unlimited := false, cause := .none }
  slot := some 17
  tag := 0x5A
  value := 0x12C40
  at_ := 0x12C40
  remaining := 2
  lost := 1
  aux := .none

/-- A queue of this many entries. -/
def queueOf (n : Nat) (s : State) : State := s.withReports { s.reports with entries := List.replicate n report17 }

/-! ## Well-formedness: an ill-formed command for each check -/

theorem test_wellFormed_ownRow : WellFormed (.registerWrite 0x00 5) = false ∧
    WellFormed (.registerWrite 0x01 5) = false ∧ WellFormed (.registerWrite 0x02 5) = false ∧
    WellFormed (.registerWrite 0x04 5) = false ∧ WellFormed (.registerWrite 0x0E 5) = false ∧
    WellFormed (.registerWrite 0x10 5) = false ∧ WellFormed (.registerWrite 0x11 5) = false := by decide
theorem test_wellFormed_control : WellFormed (.registerWrite 0x0F 1) = false ∧
    WellFormed (.registerWrite 0x0F 2) = false ∧ WellFormed (.registerWrite 0x0F 4) = true := by decide
theorem test_wellFormed_code : WellFormed (.badCommand 0x10) = false ∧ WellFormed (.badCommand 0x15) = true := by
  decide

/-! ## The codes of COMMAND (Table 12-11) -/

theorem test_code_arm : rowOfCode 0x10 = .arm ∧ rowOfCode 0x11 = .armOnTrigger ∧ rowOfCode 0x14 = .armBatch := by decide
theorem test_code_reports : rowOfCode 0x20 = .readReports ∧ rowOfCode 0x22 = .readDueList := by decide
theorem test_code_timebase : rowOfCode 0x30 = .setTimebase ∧ rowOfCode 0x34 = .setTick := by decide
theorem test_code_line : rowOfCode 0x40 = .configureLine ∧ rowOfCode 0x42 = .queryLine := by decide
theorem test_code_trigger : rowOfCode 0x50 = .configureTrigger ∧ rowOfCode 0x52 = .queryTrigger := by decide
theorem test_code_engine : rowOfCode 0x00 = .nop ∧ rowOfCode 0x60 = .setBlock ∧ rowOfCode 0x61 = .badCommand 0x61 := by
  decide
/-- The opcode table gives no row any bits. -/
theorem test_table_word : decodeTableWord 8 0x10 = none := by decide

/-! ## The manual's examples, one step each -/

/-- 12.3.1: the sixteen bytes of the report of slot 17. -/
theorem test_report_bytes : reportImage report17 =
    [0x01, 0x03, 0x11, 0x5A, 0x40, 0x2C, 0x01, 0x00, 0x40, 0x2C, 0x01, 0x00, 0x02, 0x00, 0x01, 0xFF] := by decide

/-- Slots 7, 9 and 11 of 4.7 at the counter 1000. -/
def late : State :=
  armed 11 (timer 1010) ((timer 1010).armedRun 1010)
    (armed 9 (timer 10) ((timer 10).armedRun 1010)
      (armed 7 (timer 1010) ((timer 1010).armedRun 1010) (clocks 1000 0 State.reset)))

/-- 4.7: an entry goes behind those of its own distance, and before the first farther one. -/
theorem test_tie : late.list (.due .tb0) = [7, 9, 11] := by decide
theorem test_insert_first :
    (armed 2 (timer 4) ((timer 4).armedRun 1004) late).list (.due .tb0) = [2, 7, 9, 11] := by decide

/-- 4.7: slot 30, late by five, fires LATE in the arm attempt and stands again at 1011 with two fires left. -/
theorem test_late :
    let s := runs [.arm, .completion] (params (par 30 0 0 0)
      (hold 30 { timer 1001 with period := 5, repeats := 3 } (clocks 1006 0 State.reset)))
    (s.slot 30).run.due = 1011 ∧ (s.slot 30).run.remaining = 2 ∧
      s.reports.entries.map (fun r => (r.kind, r.value, r.at_, r.remaining)) = [(.late, 1001, 1006, 2)] := by decide

/-- 4.7: slot 31 is dropped. -/
theorem test_dropped :
    let s := runs [.arm, .completion] (params (par 31 0 0 0)
      (hold 31 { timer 1002 with latePolicy := .drop } (clocks 1006 0 State.reset)))
    (s.slot 31).run.state = .held ∧ s.engine.error = .dropped ∧
      s.reports.entries.map (fun r => (r.kind, r.value, r.at_)) = [(.dropped, 1002, 1006)] := by decide

/-- 4.7: the advance to 1010 fires 7, 9 and 11 in list order, each FINAL. -/
theorem test_advance :
    let s := run (.advance (.tb0 true)) (late.withTimebase
      { late.timebase with tb0 := { count := 1009, run := .running } })
    s.list (.due .tb0) = [] ∧ s.reports.entries.map (fun r => (r.slot, r.flags.final)) =
      [(some 7, true), (some 9, true), (some 11, true)] := by decide

/-- 5.8: the fire of slot 20 at 750 sets OUT2 and arms slot 21 at 1000, which takes the line. -/
theorem test_chain :
    let c20 : SlotConfig := { SlotConfig.zero with
      timebase := .tb1, action := .set, line := 2, offset := 750, chainEnable := true, successor := 21 }
    let c21 : SlotConfig := { c20 with action := .clear, offset := 250, successor := 20 }
    let s := run (.advance .tb1) (armed 20 c20 (c20.armedRun 750) (hold 21 c21 (clocks 0 749 State.reset)))
    (s.slot 21).run.due = 1000 ∧ (s.line 2).owner = some 21 ∧ s.outPin 2 = .high ∧ s.reports.entries = [] := by
  decide

/-- 6.7: the end of the pulse on OUT4, ACTIVE_LOW, whose owner is HELD: the pin goes high and nobody owns the line. -/
theorem test_pulseEnd :
    let s := run .pulseEnd (State.reset.setLine 4
      { Line.powerOn with polarity := .activeLow, logical := .active, owner := some 60, countdown := 1 })
    s.outPin 4 = .high ∧ (s.line 4).owner = none ∧ (s.line 4).countdown = 0 := by decide

/-- 5.10: a load by a fire before the line unit took the base tick is left unlowered once (R87). -/
theorem test_baseTick_fresh :
    let s := State.reset.setLine 7
      { Line.powerOn with logical := .active, owner := some 50, countdown := 300, fresh := true }
    ((run .baseTick s).line 7).countdown = 300 ∧ ((runs [.baseTick, .baseTick] s).line 7).countdown = 299 := by decide

/-- Trigger 1 of 7.7: RISING, a lockout of 50, and slots 70 and 71 waiting. -/
def eye (lockLeft : Half) : State :=
  waiting 71 { pulser 4 800 120 with timebase := .tb1 } 1
    (waiting 70 { pulser 3 800 120 with timebase := .tb1 } 1
      ((clocks 80010 5003 State.reset).setTrig 1
        { Channel.powerOn .low with
          select := .rising, lockLength := 50, lockLeft := lockLeft, reportUnclaimed := true }))

/-- 7.7, item A: slot 70 is bound at 5123 and the window is loaded. -/
theorem test_bind :
    let s := run (.triggerEdge 1 .high) (eye 0)
    s.list (.wait 1) = [71] ∧ s.list (.due .tb1) = [70] ∧ (s.slot 70).run.due = 5123 ∧ (s.trig 1).lockLeft = 50 ∧
      s.reports.entries.map (fun r => (r.kind, r.value, r.aux)) = [(.bound, 5003, .trigger 1)] := by decide

/-- 7.7, chatter: inside the window the edge is counted, and the window runs on. -/
theorem test_bounce :
    let s := run (.triggerEdge 1 .high) (eye 38)
    s.list (.wait 1) = [70, 71] ∧ (s.trig 1).bounce = 1 ∧ (s.trig 1).lockLeft = 38 := by decide

/-- 7.7: a base tick lowers the window, which closes at 0. -/
theorem test_lockout : ((run .lockoutWindowClose (eye 1)).trig 1).lockLeft = 0 ∧
    ((run .lockoutWindowClose (eye 0)).trig 1).lockLeft = 0 := by decide

/-- 1.7: a rising edge while TB1 is HELD moves the CNT level and counts nothing. -/
theorem test_cnt_held :
    let s := State.reset.withTimebase { State.reset.timebase with tb1 := { count := 1015, run := .held } }
    (run (.cntEdge .high) s).now .tb1 = 1015 ∧ (run (.cntEdge .high) s).timebase.cntLevel = .high := by decide
theorem test_cnt_wrap : (run (.cntEdge .high) (clocks 0 0xFFFFFFFF State.reset)).now .tb1 = 0 := by decide

/-- R169, R170: an ARMED slot is HELD, its line is at the safe level with no owner, and STOPPED is posted. -/
theorem test_stop :
    let s := run .stopAssertion (armed 60 (pulser 4 40 9) ((pulser 4 40 9).armedRun 9) State.reset)
    (s.slot 60).run.state = .held ∧ (s.line 4).owner = none ∧ s.outPin 4 = .low ∧ s.stop.stopl = true ∧
      s.reports.entries.map (fun r => (r.kind, r.value, r.flags.final)) = [(.stopped, 9, true)] := by decide
theorem test_stop_release : (run .stopRelease (run .stopAssertion State.reset)).stop =
    { level := .high, qualCount := 0, stopl := true } := by decide
theorem test_stop_third_sample :
    (runs [.stopSample .low, .stopSample .low] State.reset).stop.level = .high ∧
      (runs [.stopSample .low, .stopSample .low, .stopSample .low] State.reset).stop.level = .low := by decide

/-- R98, R182: while RESET# is held every OUT pin is low, and a read drives no data; DEVICE ID reads 4Dh otherwise. -/
theorem test_reset_pins :
    let s := run .resetAssertion (State.reset.setLine 4 { Line.powerOn with polarity := .activeLow })
    s.outPin 4 = .low ∧ s.quietRead 0x17 = none ∧ s.quietRead 0x01 = none ∧
      State.reset.quietRead 0x17 = some 0x4D := by decide
theorem test_reset_release : (run (.resetRelease { resetPins with stop := .low }) (run .resetAssertion late)).stop.stopl =
    true ∧ (run (.resetRelease resetPins) (run .resetAssertion late)).list (.due .tb0) = [] := by decide

/-- The write image of slot 40 of 2.6, byte by byte from Table 12-4: tag 23, TB0 PULSE with reports, line 5, offset 500,
period 2000, repeats 3, width 100. -/
def image40 : List Byte := [23, 0x26, 5, 0, 0xF4, 1, 0, 0, 0xD0, 7, 0, 0, 3, 0, 100, 0]

theorem test_image :
    imageConfig image40 = some { pulser 5 100 500 with tag := 23, period := 2000, repeats := 3 } := by decide
theorem test_commit :
    let s := runs (.writeCursor 40 :: writes image40) State.reset
    (s.slot 40).run.state = .held ∧ (s.slot 40).config.period = 2000 ∧ s.record.writeCursor = 41 ∧
      s.record.result = .accepted := by decide
/-- 3.7: an ARMED slot 127 refuses the record, and the cursor goes on to 0. -/
theorem test_commit_refused :
    let s := runs (.writeCursor 127 :: writes image40) (armed 127 (timer 9) ((timer 9).armedRun 9) State.reset)
    (s.slot 127).config.offset = 9 ∧ s.record.writeCursor = 0 ∧ s.record.result = .refusedState := by decide
/-- R32: the state byte and the bound trigger of a HELD slot are 01h and FFh. -/
theorem test_record_read :
    (runs (.readCursor 40 :: List.replicate 17 .recordPortRead) (hold 40 (timer 5) State.reset)).readData = some 1 ∧
      (runs (.readCursor 40 :: List.replicate 18 .recordPortRead) (hold 40 (timer 5) State.reset)).readData =
        some 0xFF := by decide
theorem test_record_read_next :
    (runs (.readCursor 127 :: List.replicate 24 .recordPortRead) State.reset).record.readCursor = 0 := by decide
theorem test_cursor_modulo : (run (.writeCursor 200) State.reset).record.writeCursor = 72 ∧
    (run (.readCursor 128) State.reset).record.readCursor = 0 := by decide

/-- Table 12-2: after a command ends, CMDP alone is shown; a STATUS read clears it. -/
theorem test_status : (runs [.nop, .completion, .statusRead] State.reset).readData = some 0x08 ∧
    (runs [.nop, .completion, .statusRead, .statusRead] State.reset).readData = some 0x00 := by decide
theorem test_refused_while_busy : (runs [.nop, .arm, .statusRead] State.reset).readData = some 0x81 := by decide
theorem test_abort : (runs [.nop, .abort] State.reset).quietRead 0x0C = some 0x07 := by decide
theorem test_softReset : (run .softReset (eye 38)).list (.wait 1) = [] ∧
    ((run .softReset (eye 38)).trig 1).lockLength = 50 ∧ ((run .softReset (eye 38)).slot 70).run.state = .held := by
  decide
theorem test_intEnable : (run (.intEnable 0xFD) State.reset).quietRead 0x10 = some 0x05 := by decide
theorem test_watermark : (run (.watermark 0) State.reset).quietRead 0x11 = some 1 ∧
    (run (.watermark 200) State.reset).quietRead 0x11 = some 32 := by decide
theorem test_registerWrite : (run (.registerWrite 0x06 0xA5) State.reset).quietRead 0x06 = some 0xA5 ∧
    (run (.registerWrite 0x17 0xA5) State.reset).quietRead 0x17 = some 0x4D := by decide

/-- Table 9-2: the error codes that ERROR shows. -/
theorem test_badCommand : (runs [.badCommand 0x61, .completion] State.reset).quietRead 0x0C = some 0x01 := by decide
theorem test_arm_badNumber :
    (runs [.arm, .completion] (params (par 128 0 0 0) State.reset)).quietRead 0x0C = some 0x02 := by decide
/-- R128: the command works on the parameters latched at its acceptance. -/
theorem test_armOnTrigger :
    let s := runs [.armOnTrigger, .registerWrite 0x05 71, .registerWrite 0x06 2, .completion]
      (params (par 70 1 0 0) (hold 70 (pulser 3 800 120) State.reset))
    s.list (.wait 1) = [70] ∧ (s.line 3).owner = some 70 := by decide
theorem test_cancel_held : (runs [.cancel, .completion] State.reset).quietRead 0x0C = some 0x03 := by decide
theorem test_cancel_cut :
    let s := runs [.cancel, .completion] (params (par 60 1 0 0)
      ((armed 60 (pulser 4 40 9) ((pulser 4 40 9).armedRun 9) State.reset).setLine 4
        { Line.powerOn with logical := .active, owner := some 60, countdown := 30 }))
    s.line 4 = Line.powerOn ∧ (s.slot 60).run.state = .held := by decide
theorem test_release : (runs [.release, .completion] (params (par 40 0 0 0) (hold 40 (timer 5) State.reset))).slot 40 =
    .free := by decide
/-- R140: entries are taken in order: slot 9 is inserted, slot 10 fires at once, and the command ends with both armed. -/
theorem test_armBatch :
    let s := runs [.armBatch, .blockOpening, .transferPortWrite 9, .transferPortWrite 10, .blockProcessing]
      (params (par 0 1 2 0) (hold 9 (timer 5) (hold 10 (timer 0) (State.reset.withEngine
        { Engine.powerOn with blockSize := 8 }))))
    s.list (.due .tb0) = [9] ∧ s.engine.error = .none ∧ s.engine.remain = 0 ∧
      s.reports.entries.map (fun r => (r.kind, r.slot)) = [(.fired, some 10)] := by decide
/-- 9.11: a failed entry ends the command, with its byte in P-SLOT; the one before it stays armed, and the one behind it is
not attempted. -/
theorem test_armBatch_fails :
    let s := runs [.armBatch, .blockOpening, .transferPortWrite 9, .transferPortWrite 0xC8, .transferPortWrite 10,
        .blockProcessing]
      (params (par 0 1 3 0) (hold 9 (timer 5) (hold 10 (timer 0) (State.reset.withEngine
        { Engine.powerOn with blockSize := 8 }))))
    s.engine.params.pSlot = 0xC8 ∧ s.engine.error = .badNumber ∧ s.engine.remain = 2 ∧
      s.list (.due .tb0) = [9] ∧ s.reports.entries = [] := by decide
theorem test_readReports :
    let s := runs (.readReports :: .blockPreparation :: List.replicate 16 .transferPortRead)
      (params (par 0 0 1 0) (queueOf 2 State.reset))
    s.readData = some 0xFF ∧ s.reports.entries.length = 1 ∧ s.engine.remain = 0 ∧ s.engine.phase = .engine := by decide
theorem test_clearReports :
    (runs [.clearReports, .completion] (queueOf 32 State.reset)).quietRead 0x12 = some 0 := by decide
theorem test_readDueList :
    (runs [.readDueList, .blockPreparation, .transferPortRead] (params (par 0 1 3 0) late)).readData = some 7 := by
  decide
theorem test_setTimebase :
    (runs [.setTimebase, .completion] (params (par 0 2 0 0x34) State.reset)).now .tb1 = 0x34 := by decide
theorem test_setTimebase_busy : (runs [.setTimebase, .completion] (params (par 0 1 0 5) late)).quietRead 0x0C =
    some 0x08 := by decide
theorem test_hold_resume :
    (runs [.holdTimebase, .completion] (params (par 0 3 0 0) State.reset)).timebase.tb0.run = .held ∧
      (runs [.holdTimebase, .completion, .resumeTimebase, .completion]
        (params (par 0 2 0 0) State.reset)).timebase.tb1.run = .running := by decide
theorem test_readTime :
    let s := runs [.readTime, .completion] (params (par 0 2 0 0) (clocks 0 0x138B State.reset))
    s.quietRead 0x08 = some 0x8B ∧ s.quietRead 0x09 = some 0x13 ∧ s.quietRead 0x06 = some 0 := by decide
theorem test_setTick : (runs [.setTick, .completion] (params (par 0 0 0 3) State.reset)).timebase.tickCode = 3 := by
  decide
theorem test_configureLine :
    let s := runs [.configureLine, .completion] (params (par 4 3 0 0) State.reset)
    s.outPin 4 = .high ∧ (s.line 4).logical = .inactive ∧ (s.line 4).safe = .high := by decide
theorem test_forceLine :
    let s := runs [.forceLine, .completion] (params (par 15 1 0 0) State.reset)
    s.outPin 15 = .high ∧ (s.line 15).forced = true := by decide
theorem test_queryLine :
    let s := runs [.queryLine, .completion] (params (par 4 0 0 0) (State.reset.setLine 4
      { Line.powerOn with logical := .active, owner := some 60, countdown := 0x0128 }))
    s.quietRead 0x05 = some 60 ∧ s.quietRead 0x06 = some 1 ∧ s.quietRead 0x08 = some 0x28 ∧
      s.quietRead 0x09 = some 1 := by decide
theorem test_configureTrigger :
    let s := runs [.configureTrigger, .completion] (params (par 1 5 0 50) State.reset)
    (s.trig 1).select = .rising ∧ (s.trig 1).reportUnclaimed = true ∧ (s.trig 1).lockLength = 50 := by decide
theorem test_flushTrigger :
    let s := runs [.flushTrigger, .completion] (params (par 1 0 0 0) (eye 0))
    s.list (.wait 1) = [] ∧ s.reports.entries.map (fun r => (r.kind, r.slot, r.aux)) =
      [(.cancelled, some 70, .trigger 1), (.cancelled, some 71, .trigger 1)] := by decide
theorem test_queryTrigger :
    let s := runs [.queryTrigger, .completion] (params (par 1 0 0 0) (run (.triggerEdge 1 .high) (eye 38)))
    s.quietRead 0x07 = some 2 ∧ s.quietRead 0x08 = some 1 ∧ s.quietRead 0x09 = some 70 ∧ (s.trig 1).bounce = 0 := by
  decide
theorem test_setBlock : (runs [.setBlock, .completion] (params (par 0 0 8 0) State.reset)).engine.blockSize = 8 ∧
    (runs [.setBlock, .completion] (params (par 0 0 9 0) State.reset)).quietRead 0x0C = some 0x05 := by decide

/-! ## Witnesses: hypotheses of the statements, each clause met by a state and operands -/

/-! ### The queue of commands, RESET# and ticks -/

theorem witness_StepRunsFrontCommand : (State.reset.withPending [.nop, .arm]).pending = .nop :: [.arm] := rfl

/-- Reset with this many CLK periods counted. -/
def counting (n : Nat) (r : RunState) : State :=
  State.reset.withTimebase { State.reset.timebase with clkCount := n, tb0 := { count := 0, run := r } }

theorem witness_EmptyQueue_held : (State.reset.withResetHeld true).pending = [] ∧
    (State.reset.withResetHeld true).resetHeld = true := ⟨rfl, rfl⟩
theorem witness_EmptyQueue_between : (counting 14 .running).pending = [] ∧ (counting 14 .running).resetHeld = false ∧
    (counting 14 .running).timebase.clkCount + 1 < 16 * 10 ^ (counting 14 .running).timebase.tickCode.val := by decide
theorem witness_EmptyQueue_tick : (counting 15 .running).pending = [] ∧ (counting 15 .running).resetHeld = false ∧
    16 * 10 ^ (counting 15 .running).timebase.tickCode.val ≤ (counting 15 .running).timebase.clkCount + 1 ∧
    (counting 15 .running).timebase.tb0.run = .running := by decide
theorem witness_EmptyQueue_tick_tb0Held : (counting 15 .held).pending = [] ∧ (counting 15 .held).resetHeld = false ∧
    16 * 10 ^ (counting 15 .held).timebase.tickCode.val ≤ (counting 15 .held).timebase.clkCount + 1 ∧
    (counting 15 .held).timebase.tb0.run = .held := by decide
theorem witness_ResetHeldDevice : (State.reset.withResetHeld true).resetHeld = true ∧
    Instr.baseTick ≠ .resetAssertion ∧ ∀ pins, Instr.baseTick ≠ .resetRelease pins := by
  refine ⟨rfl, by decide, fun pins => by simp⟩

/-- A line for each clause of the base tick: 0 fresh, 1 with no countdown, 2 with two left, 3 ending with its owner slot 60
ARMED, 4 ending with a HELD owner. -/
def ticking : State :=
  ((((armed 60 (pulser 3 40 9) ((pulser 3 40 9).armedRun 9) State.reset).setLine 0
    { Line.powerOn with logical := .active, owner := some 1, countdown := 5, fresh := true }).setLine 2
      { Line.powerOn with logical := .active, owner := some 2, countdown := 2 }).setLine 3
        { Line.powerOn with logical := .active, owner := some 60, countdown := 1 }).setLine 4
          { Line.powerOn with logical := .active, owner := some 5, countdown := 1 }

theorem witness_BaseTick_fresh : ticking.resetHeld = false ∧ (ticking.line 0).fresh = true := by decide
theorem witness_BaseTick_idle : (ticking.line 1).fresh = false ∧ (ticking.line 1).countdown = 0 := by decide
theorem witness_BaseTick_lowers : (ticking.line 2).fresh = false ∧ 2 ≤ (ticking.line 2).countdown.toNat := by decide
theorem witness_BaseTick_ends_owned : (ticking.line 3).fresh = false ∧ (ticking.line 3).countdown = 1 ∧
    HoldingOwner ticking 3 := ⟨by decide, by decide, 60, by decide⟩
theorem witness_BaseTick_ends_free : (ticking.line 4).fresh = false ∧ (ticking.line 4).countdown = 1 ∧
    ¬ HoldingOwner ticking 4 := by
  refine ⟨by decide, by decide, ?_⟩
  rintro ⟨o, h, h1, -⟩
  have h5 : (ticking.line 4).owner = some 5 := by decide
  obtain rfl : o = 5 := by rw [h5] at h; exact (Option.some.inj h).symm
  exact absurd h1 (by decide)

/-! ### Advances and chains -/

theorem witness_Advance_held : (counting 0 .held).resetHeld = false ∧
    ((counting 0 .held).counterOf (timebaseOf (.tb0 true))).run = .held := by decide
theorem witness_Advance_none : late.resetHeld = false ∧ (late.counterOf (timebaseOf (.tb0 false))).run = .running ∧
    reachedAt late (.tb0 false) = [] := by decide

/-- Slot 60 ARMED on TB0 or TB1, due at the next advance from the top of the counter. -/
def dueNext (c : SlotConfig) (r : RunPart) : State :=
  armed 60 c { r with due := 0 } (clocks 0xFFFFFFFF 0xFFFFFFFF State.reset)

/-- 4.7: the advance to 1010 reaches three entries. -/
theorem witness_FiresInTurn :
    let s := late.withTimebase { late.timebase with tb0 := { count := 1009, run := .running } }
    s.resetHeld = false ∧ (s.counterOf (timebaseOf (.tb0 true))).run = .running ∧
      reachedAt s (.tb0 true) = [7, 9, 11] := by decide

/-- One-shot, and the last of a repetition. -/
theorem witness_FiresLastTime_oneShot :
    let s := dueNext (pulser 3 40 9) ((pulser 3 40 9).armedRun 0)
    FiresAt s (.tb0 false) 60 ∧ LastFire (s.slot 60) ∧ (s.slot 60).config.chainEnable = false := by
  unfold FiresAt LastFire; decide
theorem witness_FiresLastTime_repeats :
    let c : SlotConfig := { pulser 3 40 9 with timebase := .tb1, period := 5, repeats := 7 }
    let s := dueNext c { c.armedRun 0 with remaining := 1 }
    FiresAt s .tb1 60 ∧ LastFire (s.slot 60) ∧ (s.slot 60).config.chainEnable = false := by
  unfold FiresAt LastFire; decide
theorem witness_FiresPeriodic_counted :
    let c : SlotConfig := { pulser 3 40 9 with period := 50, repeats := 2 }
    let s := dueNext c (c.armedRun 0)
    FiresAt s (.tb0 true) 60 ∧ ¬ LastFire (s.slot 60) ∧ (s.slot 60).config.chainEnable = false := by
  unfold FiresAt LastFire; decide
theorem witness_FiresPeriodic_unlimited :
    let c : SlotConfig := { pulser 3 40 9 with timebase := .tb1, period := 1, repeats := 0 }
    let s := dueNext c (c.armedRun 0)
    FiresAt s .tb1 60 ∧ ¬ LastFire (s.slot 60) ∧ (s.slot 60).config.chainEnable = false := by
  unfold FiresAt LastFire; decide

/-- The timer of slot 60 that chains to slot 61, its reports on. -/
def link : SlotConfig := { timer 0 with chainEnable := true, successor := 61 }

/-- The same as a pulse on line 3, to the slot given. -/
def linkPulse (y : SlotNo) : SlotConfig := { pulser 3 40 9 with chainEnable := true, successor := y }

/-- Slot 60 due next on TB0 as given, slot 61 HELD as given. -/
def linked (c d : SlotConfig) : State := hold 61 d (dueNext c (c.armedRun 0))

/-- The hypotheses of a chain attempt of slot 60 that are no check of it. -/
abbrev Chains (s : State) (y : SlotNo) : Prop :=
  FiresAt s (.tb0 false) 60 ∧ (s.slot 60).config.chainEnable = true ∧ (s.slot 60).config.successor = y ∧
    s.stop.level = .high

/-- Slot 61 stands on TB1. -/
theorem witness_ChainArms_other :
    let s := linked link { timer 1 with timebase := .tb1 }
    Chains s 61 ∧ HeldAfterFire s 60 61 ∧ ¬ BadChainOffset (s.slot 61).config ∧ GrantedAfterFire s 60 61 := by
  refine ⟨by unfold Chains FiresAt; decide, .inl (by decide), by unfold BadChainOffset OverlapsItself; decide,
    .inl (by decide)⟩
/-- A periodic predecessor, the successor on another line at the farthest offset (R76). -/
theorem witness_ChainArms_periodic :
    let c : SlotConfig := { linkPulse 61 with period := 50, repeats := 2 }
    let s := linked c (pulser 5 40 0x7FFFFFFF)
    Chains s 61 ∧ ¬ LastFire (s.slot 60) ∧ HeldAfterFire s 60 61 ∧ ¬ BadChainOffset (s.slot 61).config ∧
      GrantedAfterFire s 60 61 := by
  refine ⟨by unfold Chains FiresAt; decide, by unfold LastFire; decide, .inl (by decide),
    by unfold BadChainOffset OverlapsItself; decide, .inr ?_⟩
  intro o h
  exact absurd h (by rw [show ∀ c d, ((linked c d).line ((linked c d).slot 61).config.line).owner = _ from
    fun _ _ => rfl]; revert o; decide)
/-- The line that slot 60 gives up at its last fire is claimed by its successor (R79). -/
theorem witness_ChainArms_sameLine :
    let s := linked (linkPulse 61) (pulser 3 40 1)
    Chains s 61 ∧ (s.line 3).owner = some 60 ∧ HeldAfterFire s 60 61 ∧ ¬ BadChainOffset (s.slot 61).config ∧
      GrantedAfterFire s 60 61 := by
  refine ⟨by unfold Chains FiresAt; decide, by decide, .inl (by decide),
    by unfold BadChainOffset OverlapsItself; decide, .inr fun o h => .inr (.inl ⟨?_, by unfold LastFire; decide⟩)⟩
  exact (Option.some.inj ((show some (60 : SlotNo) = _ by decide).trans h)).symm
/-- The self-chain of a one-shot slot (R77). -/
theorem witness_ChainArms_self :
    let s := dueNext (linkPulse 60) ((linkPulse 60).armedRun 0)
    Chains s 60 ∧ HeldAfterFire s 60 60 ∧ ¬ BadChainOffset (s.slot 60).config ∧ GrantedAfterFire s 60 60 := by
  refine ⟨by unfold Chains FiresAt; decide, .inr ⟨rfl, by unfold LastFire; decide⟩,
    by unfold BadChainOffset OverlapsItself; decide, .inr fun o h => .inl ?_⟩
  exact (Option.some.inj ((show some (60 : SlotNo) = _ by decide).trans h)).symm

/-- Slot 61 is FREE; a periodic slot chains to itself. -/
theorem witness_ChainFault_notHeld :
    let s := dueNext link (link.armedRun 0)
    Chains s 61 ∧ ¬ HeldAfterFire s 60 61 := by unfold Chains FiresAt HeldAfterFire LastFire; decide
theorem witness_ChainFault_self :
    let c : SlotConfig := { linkPulse 60 with period := 50, repeats := 0 }
    let s := dueNext c (c.armedRun 0)
    Chains s 60 ∧ ¬ HeldAfterFire s 60 60 := by unfold Chains FiresAt HeldAfterFire LastFire; decide
theorem witness_ChainFault_badOffset_zero :
    let s := linked link (timer 0)
    Chains s 61 ∧ HeldAfterFire s 60 61 ∧ BadChainOffset (s.slot 61).config := by
  unfold Chains FiresAt HeldAfterFire LastFire BadChainOffset OverlapsItself; decide
theorem witness_ChainFault_badOffset_far :
    let s := linked link (timer 0x80000000)
    Chains s 61 ∧ HeldAfterFire s 60 61 ∧ BadChainOffset (s.slot 61).config := by
  unfold Chains FiresAt HeldAfterFire LastFire BadChainOffset OverlapsItself; decide
theorem witness_ChainFault_badOffset_overlaps :
    let s := linked link { pulser 3 40 1 with period := 39 }
    Chains s 61 ∧ HeldAfterFire s 60 61 ∧ BadChainOffset (s.slot 61).config := by
  unfold Chains FiresAt HeldAfterFire LastFire BadChainOffset OverlapsItself; decide

/-- Slot 61 is HELD on line 3, which slot 7 owns. -/
def blocked : State :=
  hold 61 (pulser 3 40 1)
    (armed 7 (pulser 3 40 9) ((pulser 3 40 9).armedRun 9) (dueNext link (link.armedRun 0)))

theorem blocked_notGranted : ¬ LineGranted blocked 61 := by
  rintro (h | h | h)
  · exact absurd h (by decide)
  · exact absurd h (by decide)
  · exact h ⟨7, by decide⟩
theorem witness_ChainFault_lineBusy : Chains blocked 61 ∧ HeldAfterFire blocked 60 61 ∧
    ¬ BadChainOffset (blocked.slot 61).config ∧ ¬ GrantedAfterFire blocked 60 61 := by
  refine ⟨by unfold Chains FiresAt; decide, .inl (by decide), by unfold BadChainOffset OverlapsItself; decide, ?_⟩
  rintro (h | h)
  · exact absurd h (by decide)
  · have h7 := h 7 (by decide)
    revert h7; unfold LastFire; decide
/-- The line is the periodic predecessor's own (R76, R79). -/
theorem witness_ChainFault_lineBusy_periodic :
    let c : SlotConfig := { linkPulse 61 with period := 50, repeats := 2 }
    let s := linked c (pulser 3 40 1)
    Chains s 61 ∧ HeldAfterFire s 60 61 ∧ ¬ BadChainOffset (s.slot 61).config ∧ ¬ GrantedAfterFire s 60 61 := by
  refine ⟨by unfold Chains FiresAt; decide, .inl (by decide), by unfold BadChainOffset OverlapsItself; decide, ?_⟩
  rintro (h | h)
  · exact absurd h (by decide)
  · have h60 := h 60 (by decide)
    revert h60; unfold LastFire; decide

/-! ### Samples of the pins -/

theorem witness_Cnt_falling : State.reset.resetHeld = false ∧
    ¬ (State.reset.timebase.cntLevel = .low ∧ Level.low = .high) := by decide
theorem witness_Cnt_rising : State.reset.timebase.cntLevel = .low ∧ State.reset.timebase.tb1.run = .running ∧
    reachedAt State.reset .tb1 = [] := by decide
theorem witness_Cnt_held :
    let s := State.reset.withTimebase { State.reset.timebase with tb1 := { count := 0, run := .held } }
    s.resetHeld = false ∧ s.timebase.cntLevel = .low ∧ s.timebase.tb1.run = .held := by decide

theorem witness_Edge_sameLevel : (eye 0).resetHeld = false ∧ ((eye 0).trig 1).pin = .low := by decide
theorem witness_Edge_unqualified :
    let s := (eye 0).setTrig 1 { (eye 0).trig 1 with pin := .high }
    (s.trig 1).pin ≠ .low ∧ ¬ Qualified (s.trig 1) .low := by unfold Qualified; decide
theorem witness_Edge_lockout : (eye 1).resetHeld = false ∧ ((eye 1).trig 1).pin ≠ .high ∧
    Qualified ((eye 1).trig 1) .high ∧ ((eye 1).trig 1).lockLeft ≠ 0 := by unfold Qualified; decide
theorem witness_Edge_unclaimed :
    let s := State.reset.setTrig 3 { Channel.powerOn .high with select := .falling, reportUnclaimed := true }
    EdgeAccepted s 3 .low ∧ s.list (.wait 3) = [] := by unfold EdgeAccepted Qualified; decide
theorem witness_Edge_binds : EdgeAccepted (eye 0) 1 .high ∧ (eye 0).list (.wait 1) = 70 :: [71] ∧
    ((eye 0).slot 70).config.offset ≠ 0 := by unfold EdgeAccepted Qualified; decide

/-- Slot 70 waits as given on a channel that takes both edges. -/
def atOnce (c : SlotConfig) : State :=
  waiting 70 c 0 (State.reset.setTrig 0 { Channel.powerOn .low with select := .both })

theorem witness_Edge_firesAtOnce :
    let s := atOnce (pulser 3 40 0)
    EdgeAccepted s 0 .high ∧ s.list (.wait 0) = 70 :: [] ∧ (s.slot 70).config.offset = 0 ∧
      (s.slot 70).config.period = 0 ∧ (s.slot 70).config.chainEnable = false ∧
      70 ∉ s.list (.due (s.slot 70).config.timebase) := by unfold EdgeAccepted Qualified; decide
theorem witness_Edge_firesAtOnce_periodic :
    let c : SlotConfig := { linkPulse 61 with offset := 0, period := 50, repeats := 2 }
    let s := atOnce c
    EdgeAccepted s 0 .high ∧ s.list (.wait 0) = 70 :: [] ∧ (s.slot 70).config.offset = 0 ∧ ¬ LastFire (s.slot 70) ∧
      (s.slot 70).config.chainEnable = true := by unfold EdgeAccepted Qualified LastFire; decide

/-! ### A state that the laws of the schedule hold in: slot 60 ARMED on TB0, owning line 4 with a pulse pending -/

/-- The ejector of 6.7, due at the farthest distance. -/
def ejector : State :=
  (armed 60 (pulser 4 40 0x80000000) ((pulser 4 40 0x80000000).armedRun 0x80000000) State.reset).setLine 4
    { Line.powerOn with polarity := .activeLow, logical := .active, owner := some 60, countdown := 3 }

theorem ejector_slot (x : SlotNo) : ejector.slot x = if x = 60 then
    { config := pulser 4 40 0x80000000, run := (pulser 4 40 0x80000000).armedRun 0x80000000 } else .free := by
  revert x; decide
theorem ejector_line (l : LineNo) : ejector.line l = if l = 4 then
    { Line.powerOn with polarity := .activeLow, logical := .active, owner := some 60, countdown := 3 }
    else .powerOn := by
  revert l; decide
theorem ejector_list : ejector.list (.due .tb0) = [60] ∧ ejector.list (.due .tb1) = [] ∧
    ∀ n, ejector.list (.wait n) = [] := by decide

theorem ejector_slotWf (x : SlotNo) : SlotWf (ejector.slot x) := by
  rw [ejector_slot]
  split
  · exact ⟨by decide, by decide, by decide, by decide, by decide⟩
  · exact ⟨by decide, by decide, rfl⟩
theorem ejector_standsIn (x : SlotNo) : (ejector.slot x).standsIn = if x = 60 then some (.due .tb0) else none := by
  rw [ejector_slot]; split <;> rfl
theorem ejector_listsWf : ListsWf ejector := by
  obtain ⟨h0, h1, hw⟩ := ejector_list
  refine ⟨fun r => ?_, fun x r => ?_⟩
  · match r with
    | .due .tb0 => rw [h0]; decide
    | .due .tb1 => rw [h1]; decide
    | .wait n => rw [hw]; decide
  · rw [ejector_standsIn]
    match r with
    | .due .tb0 => rw [h0]; split <;> simp_all
    | .due .tb1 => rw [h1]; split <;> simp
    | .wait n => rw [hw]; split <;> simp

theorem witness_StopAssertion : ejector.resetHeld = false ∧ ejector.stop.level = .high ∧ ListsWf ejector ∧
    ∀ x, SlotWf (ejector.slot x) := ⟨by decide, by decide, ejector_listsWf, ejector_slotWf⟩

theorem ejector_orderWf : OrderWf ejector := by
  obtain ⟨h0, h1, -⟩ := ejector_list
  intro tb
  match tb with
  | .tb0 => rw [h0]; exact ⟨List.pairwise_singleton _ _, by decide⟩
  | .tb1 => rw [h1]; exact ⟨List.Pairwise.nil, by decide⟩
theorem ejector_ownerWf : OwnerWf ejector := by
  refine ⟨fun x => ?_, fun l => ?_, fun l => ?_⟩
  · rw [ejector_slot]
    split
    · next h => subst h; decide
    · exact fun h => absurd h (by decide)
  · rw [ejector_line]
    split
    · exact fun _ => .inr (by decide)
    · exact fun h => absurd rfl h
  · rw [ejector_line]; split <;> decide
theorem ejector_pulseWf : PulseWf ejector := by
  intro l; rw [ejector_line]; split <;> decide

theorem witness_EveryStepKeepsSchedule : ScheduleWf ejector ∧ step ejector = .next ejector.idle :=
  ⟨⟨ejector_slotWf, ejector_listsWf, ejector_orderWf, ejector_ownerWf, ejector_pulseWf,
    fun h => absurd h (by decide)⟩, rfl⟩

/-- 32 entries and the highest watermark; 15 bytes staged, a read image at its last position. -/
def brimful : State :=
  ((queueOf 32 State.reset).withReports { (queueOf 32 State.reset).reports with watermark := 32 }).withRecord
    { RecordPort.powerOn with
      writeStaging := List.replicate 15 0, readPos := 23, readStaging := some (readImage .free) }

theorem witness_EveryStepKeepsQueueAndRecordPort : QueueWf brimful.reports ∧ RecordWf brimful.record ∧
    step (brimful.withPending [.nop]) = exec .nop brimful := by
  exact ⟨⟨by decide, by decide, by decide⟩, ⟨by decide, by decide, rfl⟩, rfl⟩

/-- The last byte of a block of READ REPORTS is about to be read. -/
def delivering : State :=
  (queueOf 1 State.reset).withEngine
    { Engine.powerOn with
      current := some { code := 0x20, params := par 0 0 1 0 }
      phase := .transfer
      remain := 1
      buffer := .reports [report17]
      blockLength := 1
      bytePos := 15 }

theorem witness_EveryStepKeepsHandshake : HandshakeWf delivering ∧
    step (delivering.withPending [.transferPortRead]) = exec .transferPortRead delivering := by
  refine ⟨⟨by decide, fun _ _ => ?_, fun _ h => absurd h (by decide), fun h => absurd h (by decide)⟩, rfl⟩
  exact ⟨rfl, by decide, ⟨[], rfl⟩, by decide⟩

/-! ### The stop -/

/-- STOP# released or asserted, with this many samples at the other level. -/
def sampling (v : Level) (n : Nat) : State :=
  State.reset.withStop { level := v, qualCount := n, stopl := true }

theorem witness_StopRelease : (sampling .low 0).resetHeld = false := rfl
theorem witness_StopSample_same : Level.high = (sampling .high 2).stop.level := rfl
theorem witness_StopSample_counts : Level.low ≠ (sampling .high 1).stop.level ∧ (sampling .high 1).stop.qualCount < 2 := by
  decide
theorem witness_StopSample_third : Level.low ≠ (sampling .high 2).stop.level ∧ 2 ≤ (sampling .high 2).stop.qualCount := by
  decide
theorem witness_StopSample_again : (sampling .low 1).resetHeld = false ∧ (sampling .low 1).stop.level = .low := by decide

/-! ### The record port -/

/-- Staging with these bytes, the cursor at slot 127. -/
def staged (bs : List Byte) (s : State) : State :=
  s.withRecord { RecordPort.powerOn with writeCursor := 127, writeStaging := bs }

theorem witness_RecordWrite_first : (staged [] State.reset).resetHeld = false ∧
    (staged [] State.reset).record.writeStaging.length ≤ 14 := by decide
theorem witness_RecordWrite_last : (staged (image40.take 14) State.reset).record.writeStaging.length ≤ 14 := by decide
theorem witness_Image_badFormat_action :
    let s := staged ((image40.set 1 0x0A).take 15) State.reset
    s.record.writeStaging.length = 15 ∧ BadFormat (s.record.writeStaging ++ [0]) := by unfold BadFormat; decide
theorem witness_Image_badFormat_line :
    BadFormat ((staged ((image40.set 2 16).take 15) State.reset).record.writeStaging ++ [0]) := by
  unfold BadFormat; decide
theorem witness_Image_badFormat_successor :
    BadFormat ((staged ((image40.set 3 128).take 15) State.reset).record.writeStaging ++ [0]) := by
  unfold BadFormat; decide
theorem witness_Image_badFormat_period :
    BadFormat ((staged ((image40.set 11 128).take 15) State.reset).record.writeStaging ++ [0]) := by
  unfold BadFormat; decide
theorem witness_Image_badFormat_width :
    BadFormat ((staged ((image40.set 14 0).take 15) State.reset).record.writeStaging ++ [0]) := by
  unfold BadFormat; decide
theorem witness_Image_refused_armed :
    let s := staged (image40.take 15) (armed 127 (timer 9) ((timer 9).armedRun 9) State.reset)
    s.resetHeld = false ∧ s.record.writeStaging.length = 15 ∧ ¬ BadFormat (s.record.writeStaging ++ [0]) ∧
      (s.slot s.record.writeCursor).run.state = .armed := by unfold BadFormat; decide
theorem witness_Image_refused_waiting :
    let s := staged (image40.take 15) (waiting 127 (timer 9) 3 State.reset)
    s.record.writeStaging.length = 15 ∧ ¬ BadFormat (s.record.writeStaging ++ [0]) ∧
      (s.slot s.record.writeCursor).run.state = .waiting := by unfold BadFormat; decide
theorem witness_Image_free :
    let s := staged (image40.take 15) State.reset
    let c : SlotConfig := { pulser 5 100 500 with tag := 23, period := 2000, repeats := 3 }
    s.record.writeStaging.length = 15 ∧ FormatOk c ∧ Spells (s.record.writeStaging ++ [0]) c ∧
      (s.slot s.record.writeCursor).run.state = .free := by unfold FormatOk Spells ConfigFields; decide
theorem witness_Image_held :
    let s := staged ((image40.set 1 0xA6).take 15) (hold 127 (timer 9) State.reset)
    let c : SlotConfig := { pulser 5 100 500 with tag := 23, period := 2000, repeats := 3 }
    s.record.writeStaging.length = 15 ∧ FormatOk c ∧ Spells (s.record.writeStaging ++ [0]) c ∧
      (s.slot s.record.writeCursor).run.state = .held := by unfold FormatOk Spells ConfigFields; decide
theorem witness_WriteImageRoundTrip :
    let c : SlotConfig := { pulser 15 1 0 with period := 0x7FFFFFFF }
    FormatOk c ∧ Spells (configImage c) c ∧ Spells ((configImage c).set 1 (modeByte c ||| 0x80)) c := by
  unfold FormatOk Spells ConfigFields; decide

/-- Read staging at this position. -/
def reading (n : Nat) : State :=
  State.reset.withRecord { RecordPort.powerOn with readCursor := 127, readPos := n, readStaging := some (readImage .free) }

theorem witness_RecordRead_next : (reading 22).resetHeld = false ∧
    (reading 22).record.readStaging = some (readImage .free) ∧ (reading 22).record.readPos < 23 := by decide
theorem witness_RecordRead_last : (reading 23).record.readStaging = some (readImage .free) ∧
    (reading 23).record.readPos = 23 := by decide
theorem witness_RecordRead_empty : State.reset.record.readStaging = none := rfl
theorem witness_Cursors : State.reset.resetHeld = false := rfl

/-! ### The transfer port -/

theorem witness_TransferOutside_idle : State.reset.resetHeld = false ∧ State.reset.engine.phase ≠ .transfer := by decide
theorem witness_TransferOutside_batch : InProgress (busy 0x14 (par 0 0 1 0) .transfer State.reset) 0x14 (par 0 0 1 0) :=
  rfl
theorem witness_TransferOutside_reports : InProgress (busy 0x20 (par 0 0 1 0) .transfer State.reset) 0x20 (par 0 0 1 0) :=
  rfl
theorem witness_TransferOutside_dues : InProgress (busy 0x22 (par 0 1 1 0) .transfer State.reset) 0x22 (par 0 1 1 0) := rfl

/-- A block of two entries of READ REPORTS at a byte position. -/
def twoReports (pos : Nat) : State :=
  (queueOf 2 State.reset).withEngine
    { Engine.powerOn with
      current := some { code := 0x20, params := par 0 0 2 0 }
      phase := .transfer
      remain := 2
      buffer := .reports [report17, report17]
      blockLength := 2
      bytePos := pos }

theorem witness_ReadReports_inside : (twoReports 0).resetHeld = false ∧ (twoReports 0).engine.phase = .transfer ∧
    InProgress (twoReports 0) 0x20 (par 0 0 2 0) ∧ (twoReports 0).engine.buffer = .reports [report17, report17] ∧
    [report17, report17].length = (twoReports 0).engine.blockLength ∧
    [report17, report17][(twoReports 0).engine.bytePos / 16]? = some report17 ∧ (twoReports 0).engine.remain ≠ 0 ∧
    ((twoReports 0).engine.bytePos + 1) % 16 ≠ 0 := by unfold InProgress; decide
theorem witness_ReadReports_entryEnd : ((twoReports 15).engine.bytePos + 1) % 16 = 0 ∧
    [report17, report17][(twoReports 15).engine.bytePos / 16]? = some report17 ∧
    (twoReports 15).engine.bytePos + 1 < 16 * (twoReports 15).engine.blockLength := by decide
theorem witness_ReadReports_blockEnd : ((twoReports 31).engine.bytePos + 1) % 16 = 0 ∧
    [report17, report17][(twoReports 31).engine.bytePos / 16]? = some report17 ∧
    (twoReports 31).engine.bytePos + 1 = 16 * (twoReports 31).engine.blockLength := by decide

/-- A due-list entry. -/
def entry7 : DueEntry := { slot := 7, timebase := .tb0, periodic := false, unlimited := false, due := 1010, remaining := 1 }

/-- A block of two entries of READ DUE LIST at a byte position. -/
def twoDues (pos : Nat) : State :=
  State.reset.withEngine
    { Engine.powerOn with
      current := some { code := 0x22, params := par 0 1 2 0 }
      phase := .transfer
      remain := 2
      buffer := .dues [entry7, entry7]
      blockLength := 2
      bytePos := pos
      snapshot := [entry7, entry7] }

theorem witness_ReadDueList_inside : (twoDues 0).resetHeld = false ∧ (twoDues 0).engine.phase = .transfer ∧
    InProgress (twoDues 0) 0x22 (par 0 1 2 0) ∧ (twoDues 0).engine.buffer = .dues [entry7, entry7] ∧
    [entry7, entry7].length = (twoDues 0).engine.blockLength ∧
    [entry7, entry7][(twoDues 0).engine.bytePos / 8]? = some entry7 ∧ (twoDues 0).engine.remain ≠ 0 ∧
    ((twoDues 0).engine.bytePos + 1) % 8 ≠ 0 := by unfold InProgress; decide
theorem witness_ReadDueList_entryEnd : ((twoDues 7).engine.bytePos + 1) % 8 = 0 ∧
    [entry7, entry7][(twoDues 7).engine.bytePos / 8]? = some entry7 ∧
    (twoDues 7).engine.bytePos + 1 < 8 * (twoDues 7).engine.blockLength := by decide
theorem witness_ReadDueList_blockEnd : ((twoDues 15).engine.bytePos + 1) % 8 = 0 ∧
    [entry7, entry7][(twoDues 15).engine.bytePos / 8]? = some entry7 ∧
    (twoDues 15).engine.bytePos + 1 = 8 * (twoDues 15).engine.blockLength := by decide

/-- A block of ARM BATCH with these bytes written of two. -/
def batch (bs : List Byte) (ph : Phase) (s : State) : State :=
  s.withEngine
    { Engine.powerOn with
      current := some { code := 0x14, params := par 0 1 2 0 }
      phase := ph
      remain := 2
      buffer := .slots bs
      blockLength := 2
      bytePos := bs.length }

theorem witness_TransferWrite_inside : (batch [] .transfer State.reset).resetHeld = false ∧
    (batch [] .transfer State.reset).engine.phase = .transfer ∧
    InProgress (batch [] .transfer State.reset) 0x14 (par 0 1 2 0) ∧
    (batch [] .transfer State.reset).engine.buffer = .slots [] ∧
    (batch [] .transfer State.reset).engine.bytePos + 1 < (batch [] .transfer State.reset).engine.blockLength := by
  unfold InProgress; decide
theorem witness_TransferWrite_last : (batch [9] .transfer State.reset).engine.buffer = .slots [9] ∧
    (batch [9] .transfer State.reset).engine.bytePos + 1 = (batch [9] .transfer State.reset).engine.blockLength := by
  decide

/-! ### The host port -/

theorem witness_HostPort : State.reset.resetHeld = false ∧ State.reset.engine.phase = .idle := by decide
theorem witness_Abort_busy : (busy 0x00 .zero .engine State.reset).resetHeld = false ∧
    (busy 0x00 .zero .engine State.reset).engine.phase ≠ .idle := by decide
theorem witness_Watermark_clauses : (0 : Byte).toNat = 0 ∧ 1 ≤ (1 : Byte).toNat ∧ (32 : Byte).toNat ≤ 32 ∧
    33 ≤ (33 : Byte).toNat ∧ 33 ≤ (255 : Byte).toNat := by decide
theorem witness_RegisterWrite_addresses : (0x03 : Addr).toNat = 0x03 ∧ (0x0C : Addr).toNat = 0x0C ∧
    (0x0D : Addr).toNat = 0x0D ∧ 0x12 ≤ (0x12 : Addr).toNat ∧ 0x12 ≤ (0x1F : Addr).toNat := by decide
theorem witness_RegisterWrite_control : (0xFC : Byte).getLsbD 0 = false ∧ (0xFC : Byte).getLsbD 1 = false ∧
    (0x01 : Byte).getLsbD 0 = true ∧ (0x01 : Byte).getLsbD 1 = false ∧ (0x03 : Byte).getLsbD 1 = true := by decide
theorem witness_CommandIsAccepted : codeOfRow .arm = some 0x10 ∧ Ready State.reset := by decide
theorem witness_CommandIsAccepted_snapshot :
    codeOfRow .readDueList = some 0x22 ∧ Ready (params (par 0 1 128 0) late) ∧
      Names (params (par 0 1 128 0) late).engine.params.option .tb0 ∧
      1 ≤ (params (par 0 1 128 0) late).engine.params.count.toNat ∧
      (params (par 0 1 128 0) late).engine.params.count.toNat ≤ 128 := by unfold Names; decide
theorem not_namesOne : ¬ NamesOne 3 ∧ ¬ NamesOne 0 := by
  constructor <;> (rintro ⟨tb, h⟩; revert h; unfold Names; revert tb; rintro (_ | _) <;> decide)
theorem witness_CommandIsAccepted_noSnapshot : Ready (params (par 0 3 129 0) late) ∧
    ¬ NamesOne (params (par 0 3 129 0) late).engine.params.option ∧
    128 < (params (par 0 3 129 0) late).engine.params.count.toNat := by
  exact ⟨by decide, not_namesOne.1, by decide⟩
theorem witness_CommandIsRefused : codeOfRow .arm = some 0x10 ∧ delivering.resetHeld = false ∧
    delivering.engine.phase ≠ .idle := by decide

/-! ### Commands of the scheduler -/

/-- Slot 60 is HELD as given, TB0 at `now`. -/
def arming (c : SlotConfig) (now : Word) : State := hold 60 c (clocks now 0 State.reset)

/-- The completion of ARM of slot 60 is pending, with this OPTION latched. -/
def armPending (option : Byte) (c : SlotConfig) (now : Word) : State := serving 0x10 (par 60 option 0 0) (arming c now)

/-- The hypotheses of the statements about that completion but for the due point. -/
abbrev ArmReady (option : Byte) (c : SlotConfig) (now : Word) : Prop :=
  Executing (armPending option c now) 0x10 (par 60 option 0 0) ∧
    (par 60 option 0 0).pSlot.toNat = (60 : SlotNo).val ∧ ArmPasses (armPending option c now) option 60

theorem armReady (option : Byte) (c : SlotConfig) (now : Word) (h : c.action = .none) (h2 : OffsetOk option c) :
    ArmReady option c now := by
  have hs : (armPending option c now).slot 60 = { config := c, run := .held } :=
    State.slot_setSlot (clocks now 0 State.reset) 60 _
  exact ⟨⟨rfl, rfl, rfl⟩, rfl, rfl, by rw [hs]; rfl, by rw [hs]; exact h2, .inl (by rw [hs]; exact h)⟩
theorem offsetOk_timer (option : Byte) (o : Word) (h : o.toNat < 2 ^ 31) : OffsetOk option (timer o) :=
  ⟨fun _ => h, by unfold OverlapsItself; simp [timer, SlotConfig.zero]⟩

theorem witness_Arm_inserts : ArmReady 1 (timer 1) 0xFFFFFFFF ∧
    (let s := armPending 1 (timer 1) 0xFFFFFFFF
     2 ^ 31 ≤ (s.now (s.slot 60).config.timebase - dueFor s 1 60).toNat) :=
  ⟨armReady _ _ _ rfl (offsetOk_timer _ _ (by decide)), by decide⟩
theorem witness_Arm_inserts_farthest : ArmReady 0 (timer 0x80000000) 0 ∧
    (let s := armPending 0 (timer 0x80000000) 0
     2 ^ 31 ≤ (s.now (s.slot 60).config.timebase - dueFor s 0 60).toNat) :=
  ⟨armReady _ _ _ rfl ⟨fun h => absurd h (by decide), by unfold OverlapsItself; decide⟩, by decide⟩
theorem witness_Arm_firesAtOnce : ArmReady 1 (timer 0) 7 ∧
    (let s := armPending 1 (timer 0) 7
     dueFor s 1 60 = 7 ∧ s.now (s.slot 60).config.timebase = 7 ∧ (s.slot 60).config.period = 0 ∧
      (s.slot 60).config.chainEnable = false ∧ 60 ∉ s.list (.due (s.slot 60).config.timebase)) :=
  ⟨armReady _ _ _ rfl (offsetOk_timer _ _ (by decide)), by decide⟩
/-- A slot with fires remaining and chain enable set. -/
theorem witness_Arm_firesAtOnce_periodic :
    let c : SlotConfig := { link with period := 50, repeats := 2 }
    ArmReady 1 c 7 ∧ dueFor (armPending 1 c 7) 1 60 = 7 ∧
      (armPending 1 c 7).now ((armPending 1 c 7).slot 60).config.timebase = 7 ∧
      ((armPending 1 c 7).slot 60).config = c :=
  ⟨armReady _ _ _ rfl ⟨fun _ => by decide, by unfold OverlapsItself; decide⟩, by decide, by decide, by decide⟩
/-- The oldest due point that is past: one less than 2^31 behind the counter. -/
theorem witness_Arm_firesLate : ArmReady 0 (timer 0) 0x7FFFFFFF ∧
    (let s := armPending 0 (timer 0) 0x7FFFFFFF
     dueFor s 0 60 = 0 ∧ s.now (s.slot 60).config.timebase = 0x7FFFFFFF ∧ ((0x7FFFFFFF : Word) - 0).toNat < 2 ^ 31 ∧
      (s.slot 60).config.latePolicy = .fire) :=
  ⟨armReady _ _ _ rfl (offsetOk_timer _ _ (by decide)), by decide⟩
theorem witness_Arm_drops :
    let c : SlotConfig := { timer 0 with latePolicy := .drop }
    ArmReady 0 c 1 ∧ dueFor (armPending 0 c 1) 0 60 = 0 ∧
      (armPending 0 c 1).now ((armPending 0 c 1).slot 60).config.timebase = 1 ∧ ((1 : Word) - 0).toNat < 2 ^ 31 ∧
      ((armPending 0 c 1).slot 60).config.latePolicy = .drop :=
  ⟨armReady _ _ _ rfl ⟨fun h => absurd h (by decide), by unfold OverlapsItself; decide⟩, by decide, by decide,
    by decide, by decide⟩

theorem witness_Arm_badNumber : Executing (serving 0x10 (par 128 4 0 0) State.reset) 0x10 (par 128 4 0 0) ∧
    Executing (serving 0x11 (par 128 4 0 0) State.reset) 0x11 (par 128 4 0 0) ∧ 128 ≤ (par 128 4 0 0).pSlot.toNat ∧
    4 ≤ (par 128 4 0 0).option.toNat := ⟨serving_executing rfl, serving_executing rfl, by decide, by decide⟩
/-- Slot 127 is named while STOP# is asserted. -/
theorem witness_Arm_stopped (P : Prop) :
    let s := serving 0x10 (par 127 0 0 0) (sampling .low 0)
    Executing s 0x10 (par 127 0 0 0) ∧ (par 127 0 0 0).pSlot.toNat = (127 : SlotNo).val ∧ ArmFails s 127 P .stopped :=
  ⟨serving_executing rfl, rfl, .inl ⟨rfl, rfl⟩⟩
/-- Slot 127, FREE, is named. -/
theorem witness_Arm_badState (P : Prop) :
    let s := serving 0x11 (par 127 3 0 0) State.reset
    Executing s 0x11 (par 127 3 0 0) ∧ (par 127 3 0 0).pSlot.toNat = (127 : SlotNo).val ∧
      (par 127 3 0 0).option.toNat < 4 ∧ ArmFails s 127 P .badState :=
  ⟨serving_executing rfl, rfl, by decide, .inr (.inl ⟨rfl, by decide, rfl⟩)⟩
theorem witness_Arm_badParam :
    let s := armPending 1 (timer 0x80000000) 0
    Executing s 0x10 (par 60 1 0 0) ∧ (par 60 1 0 0).pSlot.toNat = (60 : SlotNo).val ∧
      ArmFails s 60 (OffsetOk (par 60 1 0 0).option (s.slot 60).config) .badParam :=
  ⟨⟨rfl, rfl, rfl⟩, rfl, .inr (.inr (.inl ⟨rfl, by decide, fun h => absurd (h.1 (by decide)) (by decide), rfl⟩))⟩
/-- Slot 61, whose line slot 7 owns, is named. -/
theorem witness_Arm_lineBusy :
    let s := serving 0x10 (par 61 0 0 0) blocked
    Executing s 0x10 (par 61 0 0 0) ∧ (par 61 0 0 0).pSlot.toNat = (61 : SlotNo).val ∧
      ArmFails s 61 (OffsetOk (par 61 0 0 0).option (s.slot 61).config) .lineBusy :=
  ⟨⟨rfl, rfl, rfl⟩, rfl, .inr (.inr (.inr ⟨by decide, by decide,
    ⟨fun h => absurd h (by decide), by unfold OverlapsItself; decide⟩, blocked_notGranted, rfl⟩))⟩
theorem witness_ArmOnTrigger_badParam :
    let s := serving 0x11 (par 60 1 0 0) (arming (timer 0x80000000) 0)
    Executing s 0x11 (par 60 1 0 0) ∧ (par 60 1 0 0).option.toNat < 4 ∧
      ArmFails s 60 ((s.slot 60).config.offset.toNat < 2 ^ 31 ∧ ¬ OverlapsItself (s.slot 60).config) .badParam :=
  ⟨⟨rfl, rfl, rfl⟩, by decide, .inr (.inr (.inl ⟨rfl, by decide, fun h => absurd h.1 (by decide), rfl⟩))⟩
theorem witness_ArmOnTrigger :
    let s := serving 0x11 (par 60 3 0 0) (arming (timer 0x7FFFFFFF) 0)
    Executing s 0x11 (par 60 3 0 0) ∧ (par 60 3 0 0).pSlot.toNat = (60 : SlotNo).val ∧
      (par 60 3 0 0).option.toNat = (3 : TrigNo).val ∧ s.stop.level = .high ∧ (s.slot 60).run.state = .held ∧
      (s.slot 60).config.offset.toNat < 2 ^ 31 ∧ ¬ OverlapsItself (s.slot 60).config ∧ LineGranted s 60 :=
  ⟨⟨rfl, rfl, rfl⟩, rfl, rfl, by decide, by decide, by decide, by unfold OverlapsItself; decide, .inl (by decide)⟩
theorem witness_Cancel_armed :
    let s := serving 0x12 (par 60 1 0 0) ejector
    Executing s 0x12 (par 60 1 0 0) ∧ (par 60 1 0 0).pSlot.toNat = (60 : SlotNo).val ∧
      (s.slot 60).run.state = .armed := by unfold Executing InProgress; decide
theorem witness_Cancel_waiting :
    let s := serving 0x12 (par 70 0 0 0) (eye 0)
    Executing s 0x12 (par 70 0 0 0) ∧ (par 70 0 0 0).pSlot.toNat = (70 : SlotNo).val ∧
      (s.slot 70).run.state = .waiting ∧ (s.slot 70).run.bound = some 1 := by unfold Executing InProgress; decide
theorem witness_Cancel_badNumber : Executing (serving 0x12 (par 128 0 0 0) State.reset) 0x12 (par 128 0 0 0) ∧
    128 ≤ (par 128 0 0 0).pSlot.toNat := by unfold Executing InProgress; decide
theorem witness_Cancel_held_Release :
    let s := serving 0x13 (par 60 0 0 0) (arming (timer 5) 0)
    Executing s 0x13 (par 60 0 0 0) ∧ (par 60 0 0 0).pSlot.toNat = (60 : SlotNo).val ∧
      (s.slot 60).run.state = .held := by unfold Executing InProgress; decide
theorem witness_Cancel_free :
    let s := serving 0x12 (par 127 0 0 0) State.reset
    Executing s 0x12 (par 127 0 0 0) ∧ (par 127 0 0 0).pSlot.toNat = (127 : SlotNo).val ∧
      (s.slot 127).run.state = .free := by unfold Executing InProgress; decide
theorem witness_Release_notHeld :
    let s := serving 0x13 (par 60 1 0 0) ejector
    Executing s 0x13 (par 60 1 0 0) ∧ (s.slot 60).run.state ≠ .held := by unfold Executing InProgress; decide

/-! ### Commands of the other blocks -/

theorem witness_Executing (b : Byte) (p : Params) : Executing (serving b p State.reset) b p := ⟨rfl, rfl, rfl⟩
theorem witness_BadCommand : 0x01 ∉ commandCodes ∧ 0xFF ∉ commandCodes ∧ 0x00 ∈ commandCodes := by decide
theorem witness_SetBlock : 1 ≤ (par 0 0 1 0).count.toNat ∧ (par 0 0 8 0).count.toNat ≤ 8 ∧
    (par 0 0 0 0).count.toNat = 0 ∧ 8 < (par 0 0 9 0).count.toNat := by decide
theorem witness_TransferBad_count : 64 < (par 0 0 65 0).count.toNat ∧ (par 0 0 0 0).count = 0 ∧
    128 < (par 0 1 129 0).count.toNat := by decide
theorem witness_TransferBad_select : Executing (serving 0x22 (par 0 3 1 0) State.reset) 0x22 (par 0 3 1 0) ∧
    ¬ NamesOne (par 0 3 1 0).option := ⟨⟨rfl, rfl, rfl⟩, not_namesOne.1⟩
theorem witness_SetTimebase_select : Executing (serving 0x30 (par 0 0 0 0) State.reset) 0x30 (par 0 0 0 0) ∧
    ¬ NamesOne (par 0 0 0 0).option := ⟨⟨rfl, rfl, rfl⟩, not_namesOne.2⟩
theorem witness_SetTimebase_busy :
    let s := serving 0x30 (par 0 1 0 0) late
    Executing s 0x30 (par 0 1 0 0) ∧ Names (par 0 1 0 0).option .tb0 ∧ s.list (.due .tb0) ≠ [] := by
  unfold Executing InProgress Names; decide
theorem witness_SetTimebase_loads :
    let s := serving 0x30 (par 0 2 0 0) late
    Executing s 0x30 (par 0 2 0 0) ∧ Names (par 0 2 0 0).option .tb1 ∧ s.list (.due .tb1) = [] := by
  unfold Executing InProgress Names; decide
theorem witness_Hold_none : Executing (serving 0x31 (par 0 0xFC 0 0) State.reset) 0x31 (par 0 0xFC 0 0) ∧
    (par 0 0xFC 0 0).option.getLsbD 0 = false ∧ (par 0 0xFC 0 0).option.getLsbD 1 = false := by
  unfold Executing InProgress; decide
theorem witness_Hold_both : Executing (serving 0x32 (par 0 3 0 0) State.reset) 0x32 (par 0 3 0 0) ∧
    (par 0 3 0 0).option.getLsbD 0 = true ∧ (par 0 3 0 0).option.getLsbD 1 = true := by
  unfold Executing InProgress; decide
theorem witness_ReadTime : Executing (serving 0x33 (par 0 1 0 0) late) 0x33 (par 0 1 0 0) ∧
    Names (par 0 1 0 0).option .tb0 := by unfold Executing InProgress Names; decide
theorem witness_SetTick_badParam : Executing (serving 0x34 (par 0 0 0 4) State.reset) 0x34 (par 0 0 0 4) ∧
    4 ≤ (par 0 0 0 4).value0.toNat := by unfold Executing InProgress; decide
theorem witness_SetTick_busy_list :
    let s := serving 0x34 (par 0 0 0 3) late
    Executing s 0x34 (par 0 0 0 3) ∧ (par 0 0 0 3).value0.toNat < 4 ∧ s.list (.due .tb0) ≠ [] := by
  unfold Executing InProgress; decide
theorem witness_SetTick_busy_pulse :
    let s := serving 0x34 (par 0 0 0 3) ticking
    Executing s 0x34 (par 0 0 0 3) ∧ (par 0 0 0 3).value0.toNat < 4 ∧ (s.line 4).countdown ≠ 0 := by
  unfold Executing InProgress; decide
theorem witness_SetTick_stores :
    let s := serving 0x34 (par 0 0 0 3) State.reset
    Executing s 0x34 (par 0 0 0 3) ∧ (par 0 0 0 3).value0.toNat = (3 : Fin 4).val ∧ s.list (.due .tb0) = [] ∧
      ∀ l, (s.line l).countdown = 0 := by unfold Executing InProgress; decide
theorem witness_Line_badNumber : Executing (serving 0x42 (par 16 0 0 0) State.reset) 0x42 (par 16 0 0 0) ∧
    16 ≤ (par 16 0 0 0).pSlot.toNat := by unfold Executing InProgress; decide
theorem witness_Line_owned :
    let s := serving 0x41 (par 4 3 0 0) ejector
    Executing s 0x41 (par 4 3 0 0) ∧ (par 4 3 0 0).pSlot.toNat = (4 : LineNo).val ∧ s.stop.level = .high ∧
      (s.line 4).owner = some 60 := by unfold Executing InProgress; decide
theorem witness_Line_free :
    let s := serving 0x41 (par 15 3 0 0) ejector
    Executing s 0x41 (par 15 3 0 0) ∧ (par 15 3 0 0).pSlot.toNat = (15 : LineNo).val ∧ (s.line 15).owner = none := by
  unfold Executing InProgress; decide
theorem witness_Line_stopped :
    let s := serving 0x40 (par 15 3 0 0) (sampling .low 0)
    Executing s 0x40 (par 15 3 0 0) ∧ s.stop.level = .low ∧ (s.line 15).owner = none := by
  unfold Executing InProgress; decide
theorem witness_Trigger_badNumber : Executing (serving 0x51 (par 4 0 0 0) State.reset) 0x51 (par 4 0 0 0) ∧
    4 ≤ (par 4 0 0 0).pSlot.toNat := by unfold Executing InProgress; decide
theorem witness_Trigger :
    let s := serving 0x52 (par 1 0 0 0) (eye 0)
    Executing s 0x52 (par 1 0 0 0) ∧ (par 1 0 0 0).pSlot.toNat = (1 : TrigNo).val ∧ (s.list (.wait 1)).Nodup ∧
      (s.list (.wait 1)).length < 256 ∧ (s.list (.wait 1)).head? = some 70 := by unfold Executing InProgress; decide
theorem witness_Trigger_empty :
    let s := serving 0x50 (par 3 3 0 0) (eye 0)
    Executing s 0x50 (par 3 3 0 0) ∧ (par 3 3 0 0).pSlot.toNat = (3 : TrigNo).val ∧ s.list (.wait 3) = [] := by
  unfold Executing InProgress; decide

/-! ### Block events, due points, the queue -/

theorem witness_Preparation_opens :
    let s := busy 0x20 (par 0 0 64 0) .engine ((queueOf 32 State.reset).withEngine { Engine.powerOn with remain := 64 })
    s.resetHeld = false ∧ s.engine.phase = .engine ∧ InProgress s 0x20 (par 0 0 64 0) ∧
      1 = min s.engine.blockSize (min s.engine.remain.toNat s.reports.entries.length) := by unfold InProgress; decide
theorem witness_Preparation_completes :
    let s := busy 0x20 (par 0 0 1 0) .engine State.reset
    s.engine.phase = .engine ∧ InProgress s 0x20 (par 0 0 1 0) ∧
      0 = min s.engine.blockSize (min s.engine.remain.toNat s.reports.entries.length) := by unfold InProgress; decide
theorem witness_Preparation_dues :
    let s := busy 0x22 (par 0 1 128 0) .engine
      (State.reset.withEngine { Engine.powerOn with remain := 128, snapshot := [entry7, entry7], delivered := 1 })
    s.engine.phase = .engine ∧ InProgress s 0x22 (par 0 1 128 0) ∧ Names (par 0 1 128 0).option .tb0 ∧
      1 = min s.engine.blockSize (min s.engine.remain.toNat (s.engine.snapshot.length - s.engine.delivered)) := by
  unfold InProgress Names; decide
theorem witness_Preparation_dues_completes :
    let s := busy 0x22 (par 0 1 1 0) .engine
      (State.reset.withEngine { Engine.powerOn with remain := 1, snapshot := [entry7], delivered := 1 })
    InProgress s 0x22 (par 0 1 1 0) ∧
      0 = min s.engine.blockSize (min s.engine.remain.toNat (s.engine.snapshot.length - s.engine.delivered)) := by
  unfold InProgress; decide
theorem witness_Opening :
    let s := busy 0x14 (par 0 0 64 0) .engine State.reset
    s.resetHeld = false ∧ s.engine.phase = .engine ∧ InProgress s 0x14 (par 0 0 64 0) ∧
      1 ≤ (par 0 0 64 0).count.toNat ∧ (par 0 0 64 0).count.toNat ≤ 64 ∧ s.engine.blockLength = 0 := by
  unfold InProgress; decide
/-- The block processing of this block is pending, with REMAIN as given. -/
def processing (bs : List Byte) (remain : Byte) (s : State) : State :=
  (serving 0x14 (par 0 0 3 0) s).withEngine
    { (serving 0x14 (par 0 0 3 0) s).engine with remain := remain, buffer := .slots bs, blockLength := 2 }

/-- The hypotheses of the statement about that event. -/
abbrev ProcessingReady (bs : List Byte) (remain : Byte) (s : State) : Prop :=
  Executing (processing bs remain s) 0x14 (par 0 0 3 0) ∧ 1 ≤ (par 0 0 3 0).count.toNat ∧
    (par 0 0 3 0).count.toNat ≤ 64 ∧ (processing bs remain s).engine.blockLength ≠ 0 ∧
    (processing bs remain s).engine.buffer = .slots bs ∧
    bs.length ≤ (processing bs remain s).engine.remain.toNat

theorem processingReady {bs : List Byte} {remain : Byte} {s : State} (h : s.resetHeld = false)
    (hl : bs.length ≤ remain.toNat) : ProcessingReady bs remain s :=
  ⟨⟨h, rfl, rfl⟩, by decide, by decide, Nat.succ_ne_zero 1, rfl, hl⟩

/-- Slots 60 to 63 HELD: 60 not yet due, 61 due at the counter, 62 late under DROP, 63 blocked by the offset check. -/
def batched : State :=
  hold 60 (timer 1) (hold 61 (timer 0) (hold 62 { timer 0xFFFFFFFF with latePolicy := .drop }
    (hold 63 { pulser 3 40 1 with period := 39 } State.reset)))

/-- Armed, then fired at once; the last two entries of the command. -/
theorem witness_Processing_armed : ProcessingReady [60, 61] 2 batched ∧
    (run .blockProcessing (processing [60, 61] 2 batched)).engine.error = .none := by
  exact ⟨processingReady rfl (by decide), by decide⟩
/-- The same with more to come: the next block is opened. -/
theorem witness_Processing_more : ProcessingReady [60, 61] 3 batched ∧
    (run .blockProcessing (processing [60, 61] 3 batched)).engine.phase = .transfer := by
  exact ⟨processingReady rfl (by decide), by decide⟩
/-- A number above 127 behind an armed entry, and a check that fails. -/
theorem witness_Processing_fails : ProcessingReady [60, 128] 2 batched ∧
    (run .blockProcessing (processing [60, 128] 2 batched)).engine.error = .badNumber ∧
    ProcessingReady [63, 60] 2 batched ∧
    (run .blockProcessing (processing [63, 60] 2 batched)).engine.error = .badParam := by
  exact ⟨processingReady rfl (by decide), by decide, processingReady rfl (by decide), by decide⟩
/-- An entry that is DROPPED ends the command. -/
theorem witness_Processing_dropped : ProcessingReady [62, 60] 2 batched ∧
    (run .blockProcessing (processing [62, 60] 2 batched)).engine.error = .dropped := by
  exact ⟨processingReady rfl (by decide), by decide⟩
theorem witness_DuePoint_clauses : reached 5 6 = false ∧ reached 5 0x80000005 = false ∧ reached 5 5 = true ∧
    reached 5 0x80000006 = true ∧ distance 5 0x80000006 = 2 ^ 31 + 1 := by decide
theorem witness_Report_clauses : (queueOf 31 State.reset).reports.entries.length ≤ 31 ∧
    (queueOf 32 State.reset).reports.entries.length = 32 := by decide

end Sys2Proof.Tests
end

section
/-! PROOFS. The record port (chapter 3): the bits of a byte built from fields, the images of Tables 12-4 to 12-6 by
field, each effect of a read at RECORD PORT as one equation, and the statements about the port built on these. -/

namespace Sys2Proof.Machine

open Sys2Proof.Claims

/-! ## Bits of a byte built from fields -/

theorem getLsbD_bitAt {i : Nat} (hi : i < 8) (b : Bool) (j : Nat) : (bitAt i b).getLsbD j = (decide (i = j) && b) := by
  cases b <;> simp [bitAt, hi]

/-- A field of `n` bits placed at bit `i` covers the bits from `i` to below `i + n` only. -/
theorem getLsbD_fieldAt {i n v : Nat} (hv : v < 2 ^ n) (hn : i + n ≤ 8) (j : Nat) :
    (fieldAt i v).getLsbD j = (decide (i ≤ j ∧ j < i + n) && v.testBit (j - i)) := by
  rw [fieldAt, BitVec.getLsbD_shiftLeft, BitVec.getLsbD_ofNat]
  by_cases hi : i ≤ j
  · by_cases hj : j < i + n
    · simp [hi, hj, show j < 8 by omega, show j - i < 8 by omega]
    · have hz : v.testBit (j - i) = false :=
        Nat.testBit_lt_two_pow (hv.trans_le (Nat.pow_le_pow_right two_pos (by omega)))
      simp [hz, hj]
  · simp [hi, not_le.mp hi]

/-- The bits from `i` spell `v` where each of them is that bit of `v`. -/
theorem toNat_extractLsb'_eq {x : Byte} {i n v : Nat} (hv : v < 2 ^ n)
    (h : ∀ j < n, x.getLsbD (i + j) = v.testBit j) : (x.extractLsb' i n).toNat = v := by
  refine Nat.eq_of_testBit_eq fun j => ?_
  rw [BitVec.testBit_toNat, BitVec.getLsbD_extractLsb']
  by_cases hj : j < n
  · simp [hj, h j hj]
  · simp [hj, Nat.testBit_lt_two_pow (hv.trans_le (Nat.pow_le_pow_right two_pos (not_lt.mp hj)))]

theorem toNat_byteOfFin {n : Nat} (hn : n ≤ 256) (x : Fin n) : (byteOfFin x).toNat = x.val :=
  Nat.mod_eq_of_lt (x.isLt.trans_le hn)

/-- Two bytes of an image that are those of a 16-bit field. -/
theorem le16_bytes {img : List Byte} {i : Nat} (w : Half) (h0 : img.getD i 0 = byteOf w 0)
    (h1 : img.getD (i + 1) 0 = byteOf w 1) : le16 img i = w.toNat := by
  rw [le16, h0, h1, ← byteOf_half]

/-- Four bytes of an image that are those of a 32-bit field. -/
theorem le32_bytes {img : List Byte} {i : Nat} (w : Word) (h0 : img.getD i 0 = byteOf w 0)
    (h1 : img.getD (i + 1) 0 = byteOf w 1) (h2 : img.getD (i + 2) 0 = byteOf w 2)
    (h3 : img.getD (i + 3) 0 = byteOf w 3) : le32 img i = w.toNat := by
  rw [le32, le16, le16, h0, h1, h2, h3, byteOf_word w]
  omega

/-! ## The images by field (Tables 12-4 to 12-6) -/

theorem Action.code_lt (a : Action) : a.code < 2 ^ 3 := by cases a <;> decide

theorem Action.code_eq (a : Action) : a.code = actionCode a := by cases a <;> rfl

theorem SlotState.code_lt (r : SlotState) : r.code < 2 ^ 2 := by cases r <;> decide

theorem SlotState.code_eq (r : SlotState) : r.code = stateCode r := by cases r <;> rfl

/-- Bit `j` of the mode byte belongs to one field of Table 12-5, and bit 7 to none. -/
theorem getLsbD_modeByte (c : SlotConfig) (j : Nat) : (modeByte c).getLsbD j =
    (decide (0 = j) && decide (c.timebase = .tb1) || decide (1 ≤ j ∧ j < 4) && c.action.code.testBit (j - 1) ||
      decide (4 = j) && decide (c.latePolicy = .drop) || decide (5 = j) && c.reportEnable ||
      decide (6 = j) && c.chainEnable) := by
  simp only [modeByte, BitVec.getLsbD_or, getLsbD_fieldAt c.action.code_lt (i := 1) (by omega),
    getLsbD_bitAt (i := 0) (by omega), getLsbD_bitAt (i := 4) (by omega), getLsbD_bitAt (i := 5) (by omega),
    getLsbD_bitAt (i := 6) (by omega)]

theorem extract_modeByte_action (c : SlotConfig) : ((modeByte c).extractLsb' 1 3).toNat = actionCode c.action := by
  rw [← Action.code_eq]
  refine toNat_extractLsb'_eq c.action.code_lt fun j hj => ?_
  simp [getLsbD_modeByte, show ¬ 0 = 1 + j by omega, show 1 + j < 4 by omega, show ¬ 4 = 1 + j by omega,
    show ¬ 5 = 1 + j by omega, show ¬ 6 = 1 + j by omega]

/-- The write image of a configuration holds its fields, also where more bytes follow. -/
theorem configFields_configImage (c : SlotConfig) (rest : List Byte) : ConfigFields (configImage c ++ rest) c :=
  ⟨rfl, (getLsbD_modeByte c 0).trans (by simp), extract_modeByte_action c, (getLsbD_modeByte c 4).trans (by simp),
    (getLsbD_modeByte c 5).trans (by simp), (getLsbD_modeByte c 6).trans (by simp),
    toNat_byteOfFin (by decide) c.line, toNat_byteOfFin (by decide) c.successor,
    le32_bytes c.offset rfl rfl rfl rfl, le32_bytes c.period rfl rfl rfl rfl,
    le16_bytes c.repeats rfl rfl, le16_bytes c.width rfl rfl⟩

/-- Byte 16 of the read image (Table 12-6). -/
def stateByte (r : RunPart) : Byte := fieldAt 0 r.state.code ||| bitAt 7 r.unlimited

theorem getD_readImage_state (x : Slot) : (readImage x).getD 16 0 = stateByte x.run := rfl

/-- Bits 1–0 are the state's, bit 7 is the unlimited flag, and the others are 0. -/
theorem getLsbD_stateByte (r : RunPart) (j : Nat) : (stateByte r).getLsbD j =
    (decide (j < 2) && r.state.code.testBit j || decide (7 = j) && r.unlimited) := by
  simp [stateByte, getLsbD_fieldAt r.state.code_lt (i := 0) (by omega), getLsbD_bitAt (i := 7) (by omega)]

theorem extract_stateByte_state (r : RunPart) : ((stateByte r).extractLsb' 0 2).toNat = stateCode r.state := by
  rw [← SlotState.code_eq]
  refine toNat_extractLsb'_eq r.state.code_lt fun j hj => ?_
  rw [getLsbD_stateByte]
  simp [hj, show ¬ 7 = j by omega]

theorem extract_stateByte_unassigned (r : RunPart) : (stateByte r).extractLsb' 2 5 = 0 := by
  refine BitVec.eq_of_toNat_eq (toNat_extractLsb'_eq (by decide) fun j hj => ?_)
  rw [getLsbD_stateByte]
  simp [show ¬ 2 + j < 2 by omega, show ¬ 7 = 2 + j by omega]

theorem getD_readImage_unbound {x : Slot} (h : x.run.bound = none) : (readImage x).getD 17 0 = 0xFF := by
  simp [readImage, configImage, runImage, h]

theorem getD_readImage_bound {x : Slot} {n : TrigNo} (h : x.run.bound = some n) :
    (readImage x).getD 17 0 = byteOfFin n := by
  simp [readImage, configImage, runImage, h]

/-- The last eight bytes of the read image hold the fields of the run part. -/
theorem runFields_readImage (x : Slot) : RunFields (readImage x) x.run := by
  refine ⟨?_, ?_, ?_, getD_readImage_unbound, fun n h => ?_, le16_bytes x.run.remaining rfl rfl,
    le32_bytes x.run.due rfl rfl rfl rfl⟩
  · exact extract_stateByte_state x.run
  · exact extract_stateByte_unassigned x.run
  · rw [getD_readImage_state, getLsbD_stateByte]
    simp
  · rw [getD_readImage_bound h, toNat_byteOfFin (by decide)]

/-- A snapshot is the image of its slot in the layout of Tables 12-4 to 12-6 (R32). -/
theorem readImageOf_snapshotOf (s : State) (x : SlotNo) : ReadImageOf (s.snapshotOf x) (s.slot x) :=
  ⟨rfl, configFields_configImage _ _, (getLsbD_modeByte _ 7).trans (by simp), runFields_readImage _⟩

/-! ## The registers of the record port -/

theorem cursorOf_val (b : Byte) : (cursorOf b).val = b.toNat % 128 := rfl

@[simp] theorem registerByte_writeCursor (s : State) : s.registerByte 0x01 = some (byteOfFin s.record.writeCursor) := rfl

@[simp] theorem registerByte_readCursor (s : State) : s.registerByte 0x02 = some (byteOfFin s.record.readCursor) := rfl

@[simp] theorem registerByte_cursorState (s : State) : s.registerByte 0x03 = some s.record.cursorState := rfl

/-- Bits 3–0 of CURSOR STATE are the write field position (Table 12-3). -/
theorem extract_cursorState_position (p : RecordPort) (h : p.writeStaging.length < 16) :
    (p.cursorState.extractLsb' 0 4).toNat = p.writeStaging.length := by
  have hresult : p.result.code < 2 ^ 3 := by cases p.result <;> decide
  refine toNat_extractLsb'_eq h fun j hj => ?_
  simp [RecordPort.cursorState, getLsbD_fieldAt h (i := 0) (n := 4) (by omega),
    getLsbD_fieldAt hresult (i := 4) (by omega), getLsbD_bitAt (i := 7) (by omega), hj,
    show ¬ 4 ≤ j by omega, show ¬ 7 = j by omega]

/-! ## A write and a read at RECORD PORT -/

section

variable {s : State}

/-- Before the sixteenth byte a write only stores its byte (R37). -/
theorem recordWrite_stores (b : Byte) (h : s.record.writeStaging.length < 15) :
    s.recordWrite b = s.withRecord { s.record with writeStaging := s.record.writeStaging ++ [b], last := .write } :=
  if_pos h

variable {img : List Byte}

theorem readSource_staged (h : s.record.readStaging = some img) : s.readSource = img := by
  simp [State.readSource, h]

theorem readFrom_staged (h : s.record.readStaging = some img) : s.readFrom = s.record.readPos := by
  simp [State.readFrom, h]

/-- With a snapshot in read staging the read returns the byte at the read field position (R42). -/
theorem recordByte_staged (h : s.record.readStaging = some img) : s.recordByte = img.getD s.record.readPos 0 := by
  rw [State.recordByte, readSource_staged h, readFrom_staged h]

/-- Before the last byte a read only raises the position (R42). -/
theorem recordRead_raises (h : s.record.readStaging = some img) (hp : s.record.readPos < 23) :
    s.recordRead = s.withRecord { s.record with readPos := s.record.readPos + 1, last := .read } := by
  rw [State.recordRead, readFrom_staged h, readSource_staged h, if_pos hp, ← h]

/-- The read of the last byte takes a snapshot of the next slot (R42). -/
theorem recordRead_advances (h : s.record.readStaging = some img) (hp : s.record.readPos = 23) :
    s.recordRead = s.withRecord
      { s.record with
        readCursor := s.record.readCursor + 1
        readPos := 0
        readStaging := some (s.snapshotOf (s.record.readCursor + 1))
        last := .read } := by
  rw [State.recordRead, readFrom_staged h, if_neg (by omega)]
  rfl

/-- With read staging empty the read returns the first byte of a snapshot taken now (R43). -/
theorem recordByte_empty (h : s.record.readStaging = none) :
    s.recordByte = (s.snapshotOf s.record.readCursor).getD 0 0 := by
  simp [State.recordByte, State.readSource, State.readFrom, h]

/-- With read staging empty the read leaves that snapshot in it, at position 1 (R43). -/
theorem recordRead_empty (h : s.record.readStaging = none) :
    s.recordRead = s.withRecord
      { s.record with
        readPos := 1
        readStaging := some (s.snapshotOf s.record.readCursor)
        last := .read } := by
  simp [State.recordRead, State.readSource, State.readFrom, h]

end

end Sys2Proof.Machine

namespace Sys2Proof.Proofs

open Sys2Proof.Machine

/-! ## The statements -/

/-- Settles O19: the stored byte lengthens write staging, and its length is what CURSOR STATE shows in bits 3–0. -/
theorem recordPortWriteStoresByte : Obligations.RecordPortWriteStoresByte := by
  intro s b hr hlen
  refine ⟨_, exec_recordPortWrite b hr, recordWrite_stores b (by omega), ?_⟩
  rw [recordWrite_stores b (by omega)]
  refine ⟨_, State.quietRead_released _ hr, ?_⟩
  have hlen' : (s.record.writeStaging ++ [b]).length = s.record.writeStaging.length + 1 := List.length_append
  exact (extract_cursorState_position _ (hlen'.trans_lt (by omega))).trans hlen'

/-- Settles O21, by what read staging holds: a snapshot short of its last byte, one at its last byte, or nothing. -/
theorem recordPortRead : Obligations.RecordPortRead := by
  intro s hr
  refine ⟨fun img h hp => ?_, fun img h hp => ?_, fun h => ?_⟩
  · rw [exec_recordPortRead hr, recordRead_raises h hp, recordByte_staged h]
  · refine ⟨_, readImageOf_snapshotOf s _, ?_⟩
    rw [exec_recordPortRead hr, recordRead_advances h hp, recordByte_staged h, hp]
  · refine ⟨_, readImageOf_snapshotOf s _, ?_⟩
    rw [exec_recordPortRead hr, recordRead_empty h, recordByte_empty h]

/-- Settles O22: the write is its definition, and the register reads back the cursor. -/
theorem writeCursorDiscardsPartialImage : Obligations.WriteCursorDiscardsPartialImage := fun _s b hr =>
  ⟨_, cursorOf b, exec_writeCursor b hr, cursorOf_val b, rfl, State.quietRead_released _ hr⟩

/-- Settles O23: the image placed in read staging is a snapshot of the slot under the new cursor. -/
theorem readCursorTakesSnapshot : Obligations.ReadCursorTakesSnapshot := fun s b hr =>
  ⟨_, cursorOf b, _, exec_readCursor b hr, cursorOf_val b, readImageOf_snapshotOf s _, rfl,
    State.quietRead_released _ hr⟩

end Sys2Proof.Proofs
end

section
/-! PROOFS. ABORT at the command engine (chapter 9, R142): its two cases by the phase of the engine, and the statement
about it. -/

namespace Sys2Proof.Machine

variable {s : State}

/-- No command is in progress, so there is nothing to end (R142). -/
theorem abortCommand_idle (h : s.engine.phase = .idle) : s.abortCommand = s := if_pos h

/-- A command in progress, in its ENGINE or its TRANSFER phase, is completed at the engine alone (R132, R142). -/
theorem abortCommand_inProgress (h : s.engine.phase ≠ .idle) :
    s.abortCommand = s.withEngine (s.engine.finish .aborted) := if_neg h

/-- The engine after an outcome other than OK: ERR and CMDP are set, the buffers are empty, and REMAIN and the parameter
registers are as they were (R132). -/
theorem finish_of_error (e : Engine) {err : ErrorCode} (h : err ≠ .none) :
    e.finish err =
      { e with
        current := none, phase := .idle, error := err, err := true, cmdp := true, buffer := .empty
        blockLength := 0, bytePos := 0, snapshot := [], delivered := 0 } := by
  rw [Engine.finish, decide_eq_true h]

end Sys2Proof.Machine

namespace Sys2Proof.Proofs

open Sys2Proof.Machine

/-- Settles O29, by whether a command is in progress. -/
theorem abortEndsCommand : Obligations.AbortEndsCommand := by
  intro s hr
  refine ⟨fun hidle => ?_, fun hbusy => ?_⟩
  · rw [exec_abort hr, abortCommand_idle hidle]
  · rw [exec_abort hr, abortCommand_inProgress hbusy, finish_of_error _ (by decide)]

end Sys2Proof.Proofs
end

section
/-! PROOFS. The completion events of the command reference (chapter 10): the event of each command as one equation, the
operands and the results as the bits of OPTION, the disarms of FLUSH TRIGGER on lines and queue, and the statements
built on these. -/

namespace Sys2Proof.Machine

open Sys2Proof.Claims

/-! ## The completion event of an executing command (R132) -/

/-- The state that a completion event leaves: the command's effect at its owning block, then the end of the command. -/
def Done.ended (d : Done) : State := d.state.finish d.error

/-- The end of a command reaches the engine alone. -/
theorem Done.ended_mk (t : State) (err : ErrorCode) : (Done.mk t err).ended = t.withEngine (endedNow t.engine err) :=
  rfl

section

variable {s : State} {b : Byte} {p : Params}

theorem command_executing (h : Executing s b p) : s.engine.command = commandOf b := by
  obtain ⟨_, _, hc⟩ := h
  rw [Engine.command, hc, Option.bind_some]

theorem latched_executing (h : Executing s b p) : s.engine.latched = p := by
  obtain ⟨_, _, hc⟩ := h
  rw [Engine.latched, hc]

theorem exec_completion_pending (h : Executing s b p) (hp : s.engine.pendingEvent = .completion) :
    exec .completion s = .next s.complete.ended := by
  obtain ⟨hr, _, _⟩ := h
  rw [exec_completion hr, State.completionEvent, if_pos hp, Done.ended]

/-- A command without a transfer phase holds its completion pending (R129). -/
theorem pendingEvent_plain (h : Executing s b p) (hb : Plain b) : s.engine.pendingEvent = .completion := by
  obtain ⟨hbatch, hreports, hdues⟩ := hb
  have hcommand := command_executing h
  obtain ⟨_, hphase, _⟩ := h
  rw [Engine.pendingEvent, if_pos hphase, hcommand]
  split
  · next hc => exact absurd hc hreports
  · next hc => exact absurd hc hdues
  · next hc => exact absurd hc hbatch
  · rfl

/-- A command whose acceptance check failed holds its completion pending (R129). -/
theorem pendingEvent_checkFailed (h : Executing s b p) (hf : transferCheck (commandOf b) p ≠ .none) :
    s.engine.pendingEvent = .completion := by
  have hcommand := command_executing h
  have hlatched := latched_executing h
  obtain ⟨_, hphase, _⟩ := h
  simp only [Engine.pendingEvent, if_pos hphase, hcommand, hlatched, if_neg hf]
  split <;> rfl

/-- A command without a transfer phase has the effect that its entry in the command reference gives it. -/
theorem exec_completion_command (c : Command) (h : Executing s c.code p) (hb : Plain c.code) {d : Done}
    (hd : s.engine.command = some c → s.engine.latched = p → s.complete = d) : exec .completion s = .next d.ended := by
  rw [exec_completion_pending h (pendingEvent_plain h hb),
    hd ((command_executing h).trans (commandOf_code c)) (latched_executing h)]

/-- A command whose acceptance check failed reaches no block (R151, R153, R155). -/
theorem exec_completion_checkFailed {err : ErrorCode} (h : Executing s b p) (hf : transferCheck (commandOf b) p = err)
    (herr : err ≠ .none) : exec .completion s = .next (s.withEngine (endedNow s.engine err)) := by
  subst hf
  have hcomplete : s.complete = ⟨s, transferCheck (commandOf b) p⟩ := by
    rw [State.complete, command_executing h, latched_executing h]
    cases hc : commandOf b with
    | none => rw [hc] at herr; exact absurd rfl herr
    | some c =>
      rw [hc] at herr
      cases c with
      | armBatch | readReports | readDueList => rfl
      | _ => exact absurd rfl herr
  rw [exec_completion_pending h (pendingEvent_checkFailed h herr), hcomplete, Done.ended_mk]

/-- A code that names no command reaches no block (R146). -/
theorem exec_completion_noCommand (h : Executing s b p) (hb : commandOf b = none) :
    exec .completion s = .next (s.withEngine (endedNow s.engine .badCommand)) := by
  rw [exec_completion_pending h (pendingEvent_plain h (by simp [Plain, hb])), State.complete, command_executing h, hb,
    Done.ended_mk]

/-! ## One equation for each command -/

theorem exec_completion_nop (h : Executing s 0x00 p) :
    exec .completion s = .next (s.withEngine (endedNow s.engine .none)) :=
  exec_completion_command .nop h (by decide) (d := ⟨s, .none⟩) fun hc _ => by rw [State.complete, hc]

theorem exec_completion_clearReports (h : Executing s 0x21 p) :
    exec .completion s = .next s.completeClearReports.ended :=
  exec_completion_command .clearReports h (by decide) fun hc _ => by rw [State.complete, hc]

theorem exec_completion_setTimebase (h : Executing s 0x30 p) :
    exec .completion s = .next (s.completeSetTimebase p).ended :=
  exec_completion_command .setTimebase h (by decide) fun hc hl => by rw [State.complete, hc, hl]

theorem exec_completion_holdTimebase (h : Executing s 0x31 p) :
    exec .completion s = .next (s.completeHold p).ended :=
  exec_completion_command .holdTimebase h (by decide) fun hc hl => by rw [State.complete, hc, hl]

theorem exec_completion_resumeTimebase (h : Executing s 0x32 p) :
    exec .completion s = .next (s.completeResume p).ended :=
  exec_completion_command .resumeTimebase h (by decide) fun hc hl => by rw [State.complete, hc, hl]

theorem exec_completion_readTime (h : Executing s 0x33 p) :
    exec .completion s = .next (s.completeReadTime p).ended :=
  exec_completion_command .readTime h (by decide) fun hc hl => by rw [State.complete, hc, hl]

theorem exec_completion_configureLine (h : Executing s 0x40 p) :
    exec .completion s = .next (s.completeConfigureLine p).ended :=
  exec_completion_command .configureLine h (by decide) fun hc hl => by rw [State.complete, hc, hl]

theorem exec_completion_queryLine (h : Executing s 0x42 p) :
    exec .completion s = .next (s.completeQueryLine p).ended :=
  exec_completion_command .queryLine h (by decide) fun hc hl => by rw [State.complete, hc, hl]

theorem exec_completion_configureTrigger (h : Executing s 0x50 p) :
    exec .completion s = .next (s.completeConfigureTrigger p).ended :=
  exec_completion_command .configureTrigger h (by decide) fun hc hl => by rw [State.complete, hc, hl]

theorem exec_completion_flushTrigger (h : Executing s 0x51 p) :
    exec .completion s = .next (s.completeFlushTrigger p).ended :=
  exec_completion_command .flushTrigger h (by decide) fun hc hl => by rw [State.complete, hc, hl]

theorem exec_completion_queryTrigger (h : Executing s 0x52 p) :
    exec .completion s = .next (s.completeQueryTrigger p).ended :=
  exec_completion_command .queryTrigger h (by decide) fun hc hl => by rw [State.complete, hc, hl]

theorem exec_completion_setBlock (h : Executing s 0x60 p) :
    exec .completion s = .next (s.completeSetBlock p).ended :=
  exec_completion_command .setBlock h (by decide) fun hc hl => by rw [State.complete, hc, hl]

end

/-! ## Codes and selects (Tables 12-10 and 12-11) -/

/-- The listed codes are all that name a command. -/
theorem commandOf_none {b : Byte} (h : b ∉ commandCodes) : commandOf b = none := by
  cases hc : commandOf b with
  | none => rfl
  | some c =>
    obtain rfl := code_of_commandOf b c hc
    exact absurd (by cases c <;> decide) h

/-- The model's select and the statements' agree for each value of the two bits. -/
theorem optionOne_eq_some_iff {o : Byte} {tb : Timebase} : optionOne o = some tb ↔ Names o tb := by
  unfold optionOne Names
  cases o.getLsbD 0 <;> cases o.getLsbD 1 <;> cases tb <;> simp

theorem optionOne_eq_none_iff {o : Byte} : optionOne o = none ↔ ¬ NamesOne o := by
  simp only [Option.eq_none_iff_forall_ne_some, ne_eq, optionOne_eq_some_iff, NamesOne, not_exists]

/-- A READ DUE LIST that names no one timebase or whose COUNT is out of range fails its acceptance check (R155). -/
theorem transferCheck_readDueList {p : Params} (h : ¬ NamesOne p.option ∨ p.count = 0 ∨ 128 < p.count.toNat) :
    transferCheck (some .readDueList) p = .badParam := by
  rw [← optionOne_eq_none_iff, ← Option.isNone_iff_eq_none] at h
  rw [transferCheck]
  by_cases hone : (optionOne p.option).isNone = true
  · rw [if_pos hone]
  · rw [if_neg hone, if_pos (h.resolve_left hone)]

/-! ## Timebases -/

/-- SET TIMEBASE writes the count of one counter and keeps its run state (R10). -/
theorem setCounter_count (s : State) (tb : Timebase) (w : Word) :
    s.setCounter tb { s.counterOf tb with count := w } = s.withTimebase
      (if tb = .tb0 then { s.timebase with tb0 := { s.timebase.tb0 with count := w } }
        else { s.timebase with tb1 := { s.timebase.tb1 with count := w } }) := by
  cases tb <;> rfl

theorem engine_setCounter (s : State) (tb : Timebase) (c : Counter) : (s.setCounter tb c).engine = s.engine := by
  cases tb <;> rfl

theorem now_setCounter (s : State) (tb : Timebase) (c : Counter) : (s.setCounter tb c).now tb = c.count := by
  rw [State.now, State.counterOf_setCounter]

theorem setRun_if (b : Bool) (r : RunState) (c : Counter) :
    (if b then { c with run := r } else c) = { c with run := if b then r else c.run } := by
  cases b <;> rfl

/-- Each run state is the command's where its timebase is named, and stays otherwise (R8, R9). -/
theorem setRuns_eq (s : State) (o : Byte) (r : RunState) :
    s.setRuns o r = s.withTimebase
      { s.timebase with
        tb0 := { s.timebase.tb0 with run := if o.getLsbD 0 then r else s.timebase.tb0.run }
        tb1 := { s.timebase.tb1 with run := if o.getLsbD 1 then r else s.timebase.tb1.run } } := by
  rw [State.setRuns, setRun_if, setRun_if]
  rfl

theorem optionNoTimebase_iff {o : Byte} : optionNoTimebase o = true ↔ o.getLsbD 0 = false ∧ o.getLsbD 1 = false := by
  simp [optionNoTimebase, optionNames]

/-- HOLD TIMEBASE and RESUME TIMEBASE are one effect with two run states (R157). -/
theorem exec_completion_setRuns {s : State} {p : Params} {b : Byte} {r : RunState} (h : Executing s b p)
    (hbr : (b = 0x31 ∧ r = .held) ∨ (b = 0x32 ∧ r = .running)) :
    exec .completion s = .next
      (if optionNoTimebase p.option then Done.mk s .badParam else ⟨s.setRuns p.option r, .none⟩).ended := by
  obtain ⟨rfl, rfl⟩ | ⟨rfl, rfl⟩ := hbr
  · exact exec_completion_holdTimebase h
  · exact exec_completion_resumeTimebase h

/-- Bits 0 and 1 are the run states and bits 3 and 2 the tick code (Table 12-10). -/
theorem getLsbD_timeOption (u : TimebaseUnit) (j : Nat) : (timeOption u).getLsbD j =
    (decide (0 = j) && decide (u.tb0.run = .held) || decide (1 = j) && decide (u.tb1.run = .held) ||
      decide (2 ≤ j ∧ j < 4) && u.tickCode.val.testBit (j - 2)) := by
  simp only [timeOption, BitVec.getLsbD_or, getLsbD_bitAt (i := 0) (by omega), getLsbD_bitAt (i := 1) (by omega),
    getLsbD_fieldAt (n := 2) u.tickCode.isLt (i := 2) (by omega)]

theorem extract_timeOption_tickCode (u : TimebaseUnit) : ((timeOption u).extractLsb' 2 2).toNat = u.tickCode.val := by
  refine toNat_extractLsb'_eq u.tickCode.isLt fun j hj => ?_
  simp [getLsbD_timeOption, show ¬ 0 = 2 + j by omega, show ¬ 1 = 2 + j by omega, show 2 + j < 4 by omega]

theorem extract_timeOption_unassigned (u : TimebaseUnit) : (timeOption u).extractLsb' 4 4 = 0 := by
  refine BitVec.eq_of_toNat_eq (toNat_extractLsb'_eq (by decide) fun j hj => ?_)
  simp [getLsbD_timeOption, show ¬ 0 = 4 + j by omega, show ¬ 1 = 4 + j by omega]

/-! ## Lines -/

theorem logicalFor_eq_safeState (p : Polarity) (v : Level) : logicalFor p v = safeState p v := by
  cases p <;> cases v <;> rfl

/-- CONFIGURE LINE drives the line INACTIVE, or to its new safe level while STOP# is asserted (R95). -/
theorem configure_eq (s : State) (l : Line) (p : Polarity) (v : Level) :
    l.configure p v s.stopAsserted =
      { l with
        polarity := p, safe := v, forced := false
        logical := if s.stop.level = .low then safeState p v else .inactive } := by
  simp [Line.configure, State.stopAsserted, logicalFor_eq_safeState]

/-- Bit 0 is the logical state and bit 1 the forced flag (Table 12-10). -/
theorem getLsbD_lineOption (l : Line) (j : Nat) : (lineOption l).getLsbD j =
    (decide (0 = j) && decide (l.logical = .active) || decide (1 = j) && l.forced) := by
  simp only [lineOption, BitVec.getLsbD_or, getLsbD_bitAt (i := 0) (by omega), getLsbD_bitAt (i := 1) (by omega)]

theorem extract_lineOption_unassigned (l : Line) : (lineOption l).extractLsb' 2 6 = 0 := by
  refine BitVec.eq_of_toNat_eq (toNat_extractLsb'_eq (by decide) fun j hj => ?_)
  simp [getLsbD_lineOption, show ¬ 0 = 2 + j by omega, show ¬ 1 = 2 + j by omega]

/-- A slot number is below 128, so none of them is the FFh that stands for none. -/
theorem toNat_ownerByte_some (x : SlotNo) : (ownerByte (some x)).toNat = x.val := toNat_byteOfFin (by decide) x

/-! ## Triggers -/

/-- A bit of a field whose value is known. -/
theorem getLsbD_of_toNat_extractLsb' {x : Byte} {i n v : Nat} (h : (x.extractLsb' i n).toNat = v) {j : Nat}
    (hj : j < n) : x.getLsbD (i + j) = v.testBit j := by
  rw [← h, BitVec.testBit_toNat, BitVec.getLsbD_extractLsb', decide_eq_true hj, Bool.true_and]

/-- The code of an edge select (Table 12-10). -/
def EdgeSelect.code : EdgeSelect → Nat
  | .none => 0
  | .rising => 1
  | .falling => 2
  | .both => 3

/-- CONFIGURE TRIGGER takes the edge select whose code stands in bits 1 and 0. -/
theorem optionEdge_of_code {o : Byte} {e : EdgeSelect} (h : (o.extractLsb' 0 2).toNat = e.code) : optionEdge o = e := by
  have h0 : o.getLsbD 0 = e.code.testBit 0 := getLsbD_of_toNat_extractLsb' h (j := 0) (by decide)
  have h1 : o.getLsbD 1 = e.code.testBit 1 := getLsbD_of_toNat_extractLsb' h (j := 1) (by decide)
  rw [optionEdge, h0, h1]
  cases e <;> rfl

/-! ## The disarms of FLUSH TRIGGER (R66, R111) -/

/-- A scheduling operation changes slots, lists, lines and the queue only. -/
theorem SchedStep.eq_update {s t : State} (h : SchedStep s t) :
    t = (((s.withSlots t.slots).withSched t.sched).withLines t.lines).withReports t.reports := by
  obtain ⟨hpending, hresetHeld, hreadData, htimebase, htrigs, hrecord, hengine, hintEnable, hstop, hfreeIndex, _⟩ := h
  cases t
  simp_all [State.withSlots, State.withSched, State.withLines, State.withReports]

/-- Slot `x` names line `l` with an action and is its owner. -/
abbrev OwnsLine (s : State) (x : SlotNo) (l : LineNo) : Prop :=
  (s.slot x).config.action ≠ .none ∧ (s.slot x).config.line = l ∧ (s.line l).owner = some x

section

variable (s : State) (r : ListRef) (aux : Aux)

theorem config_cancelSlot (x y : SlotNo) (cut : Bool) :
    ((s.cancelSlot r x cut aux).slot y).config = (s.slot y).config := by
  by_cases h : y = x
  · subst h; rw [State.slot_cancelSlot]
  · rw [State.slot_cancelSlot_ne _ _ _ _ _ h]

/-- A disarm without CUT releases the line that the slot owns with no pulse pending, and no other (R66, R90). -/
theorem line_cancelSlot_noCut (x : SlotNo) (l : LineNo) :
    (s.cancelSlot r x false aux).line l =
      if OwnsLine s x l ∧ (s.line l).countdown = 0 then { s.line l with owner := none } else s.line l := by
  rw [State.line_cancelSlot]
  by_cases h : (s.slot x).config.action ≠ .none ∧ l = (s.slot x).config.line
  · simp [OwnsLine, Line.released, h]
  · rw [if_neg h, if_neg fun ⟨⟨haction, hline, _⟩, _⟩ => h ⟨haction, hline.symm⟩]

/-- A run of disarms releases the lines that its slots own with no pulse pending: a line released by one of them has no
owner for a later one to release. -/
theorem line_cancelRun (xs : List SlotNo) (l : LineNo) :
    (xs.foldl (fun t x => t.cancelSlot r x false aux) s).line l =
      if (∃ x ∈ xs, OwnsLine s x l) ∧ (s.line l).countdown = 0 then { s.line l with owner := none } else s.line l := by
  induction xs generalizing s with
  | nil => simp
  | cons x xs ih =>
    rw [List.foldl_cons, ih]
    have hline := line_cancelSlot_noCut s r aux x l
    by_cases h : OwnsLine s x l ∧ (s.line l).countdown = 0
    · rw [if_pos h] at hline
      have hunowned : ¬ ∃ y ∈ xs, OwnsLine (s.cancelSlot r x false aux) y l := by
        rintro ⟨y, _, _, _, howner⟩
        rw [hline] at howner
        cases howner
      rw [if_neg fun h' => hunowned h'.1, hline, if_pos ⟨⟨x, List.mem_cons_self, h.1⟩, h.2⟩]
    · rw [if_neg h] at hline
      have howns : ∀ y, OwnsLine (s.cancelSlot r x false aux) y l ↔ OwnsLine s y l := by
        simp only [OwnsLine, config_cancelSlot, hline, implies_true]
      simp only [howns, hline, List.exists_mem_cons_iff]
      exact if_congr (by tauto) rfl rfl

/-- The report of a disarm does not read what the disarm of another slot changes. -/
theorem disarmReport_cancelSlot {x y : SlotNo} (h : y ≠ x) (cut : Bool) (aux' : Aux) (kind : ReportKind) :
    disarmReport (s.cancelSlot r x cut aux) y kind aux' = disarmReport s y kind aux' := by
  simp only [disarmReport, reportOf, State.slot_cancelSlot_ne _ _ _ _ _ h, (s.cancelSlot_schedStep r x cut aux).now]

theorem reports_cancelRun (xs : List SlotNo) (hx : xs.Nodup) :
    (xs.foldl (fun t x => t.cancelSlot r x false aux) s).reports =
      (disarmReports s xs .cancelled aux).foldl ReportQueue.append s.reports := by
  induction xs generalizing s with
  | nil => rfl
  | cons x xs ih =>
    obtain ⟨hxs, hnodup⟩ := List.nodup_cons.1 hx
    have hne : ∀ y ∈ xs, y ≠ x := fun y hy e => hxs (e ▸ hy)
    have hrest : disarmReports (s.cancelSlot r x false aux) xs .cancelled aux = disarmReports s xs .cancelled aux := by
      simp only [disarmReports, config_cancelSlot]
      refine List.map_congr_left fun y hy => ?_
      exact disarmReport_cancelSlot s r aux (hne y (List.mem_of_mem_filter hy)) _ _ _
    rw [List.foldl_cons, ih _ hnodup, hrest, State.reports_cancelSlot]
    cases h : (s.slot x).config.reportEnable with
    | true => simp only [disarmReports, List.filter_cons_of_pos, h, List.map_cons, List.foldl_cons, if_true]; rfl
    | false => simp [disarmReports, h]

end

end Sys2Proof.Machine

namespace Sys2Proof.Proofs

open Sys2Proof.Machine Sys2Proof.Claims

/-! ## The statements -/

/-- Settles O43: each command by its completion event, a failed transfer by its acceptance check. -/
theorem nopBadCommandClearReportsSetBlock : Obligations.NopBadCommandClearReportsSetBlock := by
  intro s b p h
  refine ⟨?_, fun hb => exec_completion_noCommand h (commandOf_none hb), ?_, ?_, ?_, ?_⟩
  · rintro rfl
    exact exec_completion_nop h
  · rintro rfl
    exact exec_completion_clearReports h
  · rintro rfl hlow hhigh
    rw [exec_completion_setBlock h, State.completeSetBlock, if_pos ⟨hlow, hhigh⟩]
    rfl
  · rintro rfl hout
    rw [exec_completion_setBlock h, State.completeSetBlock, if_neg (by omega), Done.ended_mk]
  · rintro (⟨rfl | rfl, hcount⟩ | ⟨rfl, hbad⟩)
    · exact exec_completion_checkFailed h (if_pos hcount) (by decide)
    · exact exec_completion_checkFailed h (if_pos hcount) (by decide)
    · exact exec_completion_checkFailed h (transferCheck_readDueList hbad) (by decide)

/-- Settles O44, by the select and, for SET TIMEBASE, the due list of the named timebase. -/
theorem setHoldAndResumeTimebase : Obligations.SetHoldAndResumeTimebase := by
  refine ⟨fun s p h => ⟨fun hnone => ?_, fun tb hname => ⟨fun hbusy => ?_, fun hempty => ?_⟩⟩, fun s p b r h hbr => ?_⟩
  · rw [exec_completion_setTimebase h, State.completeSetTimebase, optionOne_eq_none_iff.2 hnone, Done.ended_mk]
  · simp only [exec_completion_setTimebase h, State.completeSetTimebase, optionOne_eq_some_iff.2 hname, if_neg hbusy,
      Done.ended_mk]
  · have hnow : ((s.setCounter tb { s.counterOf tb with count := p.value }).withEngine
        (endedNow s.engine .none)).now tb = p.value := now_setCounter s tb _
    refine ⟨_, ?_, ?_, ?_, (congrArg BitVec.toNat hnow).trans (wordOf_toNat _ _ _ _)⟩
    · simp only [exec_completion_setTimebase h, State.completeSetTimebase, optionOne_eq_some_iff.2 hname, if_pos hempty,
        Done.ended_mk, engine_setCounter]
    · rw [setCounter_count]
      rfl
    · rw [hnow, setCounter_count]
      rfl
  · rw [exec_completion_setRuns h hbr]
    refine ⟨fun h0 h1 => ?_, fun hnamed => ?_⟩
    · rw [if_pos (optionNoTimebase_iff.2 ⟨h0, h1⟩), Done.ended_mk]
    · rw [if_neg fun hnone => ?_, setRuns_eq]
      · rfl
      · obtain ⟨h0, h1⟩ := optionNoTimebase_iff.1 hnone
        simp only [h0, h1, Bool.false_eq_true, or_self] at hnamed

/-- Settles O45: the counter by its four bytes, OPTION by its bits. -/
theorem readTime : Obligations.ReadTime := by
  intro s p h
  refine ⟨fun hnone => ?_, fun tb hname => ?_⟩
  · rw [exec_completion_readTime h, State.completeReadTime, optionOne_eq_none_iff.2 hnone, Done.ended_mk]
  refine ⟨timeOption s.timebase, byteOf (s.now tb) 0, byteOf (s.now tb) 1, byteOf (s.now tb) 2, byteOf (s.now tb) 3,
    ?_, byteOf_word _, ?_, ?_, extract_timeOption_tickCode _, extract_timeOption_unassigned _⟩
  · rw [exec_completion_readTime h, State.completeReadTime, optionOne_eq_some_iff.2 hname]
    rfl
  · exact (getLsbD_timeOption _ 0).trans (by simp)
  · exact (getLsbD_timeOption _ 1).trans (by simp)

/-- Settles O47, by the line number and the owner. -/
theorem configureLine : Obligations.ConfigureLine := by
  intro s q h
  refine ⟨fun hbad => ?_, fun l p v hl hp hv => ⟨fun howned => ?_, fun hfree => ?_⟩⟩
  · rw [exec_completion_configureLine h, State.completeConfigureLine, lineOf_none hbad, Done.ended_mk]
  · simp only [exec_completion_configureLine h, State.completeConfigureLine, lineOf_some hl, if_pos howned,
      Done.ended_mk]
  · subst hp hv
    simp only [exec_completion_configureLine h, State.completeConfigureLine, lineOf_some hl, if_neg (not_not.2 hfree),
      Done.ended_mk, configure_eq]
    rfl

/-- Settles O49: the owner and the countdown by their bytes, OPTION by its bits. -/
theorem queryLine : Obligations.QueryLine := by
  intro s q h
  refine ⟨fun hbad => ?_, fun l hl => ?_⟩
  · rw [exec_completion_queryLine h, State.completeQueryLine, lineOf_none hbad, Done.ended_mk]
  refine ⟨ownerByte (s.line l).owner, lineOption (s.line l), byteOf (s.line l).countdown 0,
    byteOf (s.line l).countdown 1, ?_, fun hnone => ?_, fun x hx => ?_, ?_, ?_, extract_lineOption_unassigned _,
    byteOf_half _⟩
  · rw [exec_completion_queryLine h, State.completeQueryLine, lineOf_some hl]
    rfl
  · rw [hnone, ownerByte]
  · rw [hx, toNat_ownerByte_some]
  · exact (getLsbD_lineOption _ 0).trans (by simp)
  · exact (getLsbD_lineOption _ 1).trans (by simp)

/-- Settles O50, by the command and the trigger number. -/
theorem configureAndQueryTrigger : Obligations.ConfigureAndQueryTrigger := by
  rintro s p b (rfl | rfl) h
  · refine ⟨fun hbad => ?_, fun n hn => ⟨fun _ => ?_, fun hb => absurd hb (by decide)⟩⟩
    · rw [exec_completion_configureTrigger h, State.completeConfigureTrigger, trigOf_none hbad, Done.ended_mk]
    refine ⟨optionEdge p.option, p.half, ?_, optionEdge_of_code (e := .none), optionEdge_of_code (e := .rising),
      optionEdge_of_code (e := .falling), optionEdge_of_code (e := .both), halfOf_toNat _ _⟩
    rw [exec_completion_configureTrigger h, State.completeConfigureTrigger, trigOf_some hn]
    rfl
  · refine ⟨fun hbad => ?_, fun n hn => ⟨fun hb => absurd hb (by decide), fun _ => ?_⟩⟩
    · rw [exec_completion_queryTrigger h, State.completeQueryTrigger, trigOf_none hbad, Done.ended_mk]
    refine ⟨BitVec.ofNat 8 (s.list (.wait n)).length, ownerByte (s.list (.wait n)).head?, ?_, Nat.mod_eq_of_lt,
      fun hempty => ?_, fun x hx => ?_⟩
    · rw [exec_completion_queryTrigger h, State.completeQueryTrigger, trigOf_some hn]
      rfl
    · rw [hempty, List.head?_nil, ownerByte]
    · rw [Option.mem_def.1 hx, toNat_ownerByte_some]

/-- Settles O51: the disarms by their run over the wait list, one lemma each for slots and lists, lines, and queue. -/
theorem flushTrigger : Obligations.FlushTrigger := by
  intro s p h
  refine ⟨fun hbad => ?_, fun n hn hnodup => ?_⟩
  · rw [exec_completion_flushTrigger h, State.completeFlushTrigger, trigOf_none hbad, Done.ended_mk]
  have hstep := s.flush_schedStep n
  obtain ⟨hslots, hlist, hothers⟩ := s.cancelRun (.wait n) (.trigger n) _ hnodup
  refine ⟨(s.flush n).withEngine (endedNow s.engine .none), ?_, ?_, ?_, hothers, hslots, fun l => ?_, ?_⟩
  · rw [exec_completion_flushTrigger h, State.completeFlushTrigger, trigOf_some hn, Done.ended_mk, hstep.engine]
  · exact congrArg (State.withEngine · _) hstep.eq_update
  · exact hlist.trans (List.eq_nil_iff_forall_not_mem.2 fun x hx => by simp [hnodup.mem_sdiff_iff] at hx)
  · have hline := line_cancelRun s (.wait n) (.trigger n) (s.list (.wait n)) l
    exact ⟨fun howned => hline.trans (if_pos howned), fun hnot => hline.trans (if_neg hnot)⟩
  · exact reports_cancelRun s (.wait n) (.trigger n) _ hnodup

end Sys2Proof.Proofs
end

section
/-! PROOFS. What the operations of the scheduler change, in the words of the statements: one slot's run part, its line, its
due list, and reports; and the fire with its four steps as the statements spell it (R62 to R65). -/

namespace Sys2Proof.Machine

open Sys2Proof.Claims

/-! ## The statements' words for the model's functions -/

theorem acted_eq (a : Action) (w : Half) (fresh : Bool) (l : Line) : acted a w fresh l = l.act a w fresh := by
  cases a <;> rfl

theorem overlapsItself_iff (c : SlotConfig) : c.overlapsItself = true ↔ OverlapsItself c := by
  simp [SlotConfig.overlapsItself, OverlapsItself]

theorem lastFire_iff (x : Slot) : x.lastFire = true ↔ LastFire x := decide_eq_true_iff

theorem lastFire_eq_false_iff (x : Slot) : x.lastFire = false ↔ ¬ LastFire x := decide_eq_false_iff_not

theorem remainingAfter_eq (x : Slot) : x.remainingAfter = remainingAfterFire x := by
  unfold Slot.remainingAfter remainingAfterFire
  by_cases h : LastFire x
  · rw [if_pos ((lastFire_iff x).2 h), if_pos (.inl h)]
  · rw [if_neg (by simpa [lastFire_iff] using h)]
    exact if_congr (by simp [h]) rfl rfl

theorem State.runAfter_eq (s : State) (x : SlotNo) :
    s.runAfter x =
      if LastFire (s.slot x) then heldRun
      else
        { (s.slot x).run with
          due := s.now (s.slot x).config.timebase + (s.slot x).config.period
          remaining := remainingAfterFire (s.slot x) } := by
  rw [State.runAfter, remainingAfter_eq]
  exact if_congr (lastFire_iff _) rfl rfl

theorem fireReport_eq (s : State) (x : SlotNo) (kind : ReportKind) : s.fireReport x kind = fireReport s x kind := by
  simp only [State.fireReport, fireReport, remainingAfter_eq]
  rfl

theorem chainFaultReport_eq (s : State) (x : SlotNo) (cause : ChainCause) :
    s.chainFaultReport x cause = chainFaultReport s x (s.slot x).config.successor cause := by
  rw [State.chainFaultReport, fireReport_eq]
  rfl

theorem holdingOwner_iff (s : State) (l : LineNo) : s.ownerHolds l = true ↔ HoldingOwner s l := by
  simp only [State.ownerHolds_iff, State.holds_iff, HoldingOwner]

theorem lineFree_iff (s : State) (x : SlotNo) : s.LineFree x ↔ LineGranted s x := by
  rw [State.LineFree, LineGranted, ← holdingOwner_iff, Bool.eq_false_iff, ne_eq, State.claimRefused_iff]
  tauto

theorem stopAsserted_eq_false_iff (s : State) : s.stopAsserted = false ↔ s.stop.level = .high := by
  cases h : s.stop.level <;> simp [State.stopAsserted, h]

theorem handed_eq (enabled : Bool) (r : Report) (s : State) : (s.postIf enabled r).reports = handed enabled r s.reports :=
  s.reports_postIf enabled r

theorem insertedByDistance_insert (dist : SlotNo → Nat) (x : SlotNo) (l : List SlotNo) :
    InsertedByDistance dist x l (insertByDistance dist x l) := insertByDistance_split dist x l

/-! ## One slot's run part and its line -/

theorem onlyItsRun_of {s t : State} {x : SlotNo} {r : RunPart} (hx : t.slot x = { s.slot x with run := r })
    (hy : ∀ y, y ≠ x → t.slot y = s.slot y) : OnlyItsRun s t x r := by
  intro y
  by_cases h : y = x
  · subst h; rw [if_pos rfl, hx]
  · rw [if_neg h, hy y h]

section

variable (s : State) (x : SlotNo)

theorem onlyItsRun_setRun (r : RunPart) : OnlyItsRun s (s.setRun x r) x r :=
  onlyItsRun_of (s.slot_setRun x r) fun _ h => s.slot_setRun_ne r h

theorem onlyItsLine_withClaim : OnlyItsLine s (s.withClaim x) x (claimed x) := s.line_withClaim x

theorem onlyItsRun_armInto (due : Word) :
    OnlyItsRun s (s.armInto x due) x (armedRun (s.slot x).config due) :=
  onlyItsRun_of (s.slot_armInto x due) fun _ h => s.slot_armInto_ne x due h

theorem onlyItsRun_fireOwn (kind : ReportKind) (fresh : Bool) :
    OnlyItsRun s (s.fireOwn x kind fresh) x (s.runAfter x) :=
  onlyItsRun_of (s.slot_fireOwn x kind fresh) fun _ h => s.slot_fireOwn_ne x kind fresh h

theorem onlyItsLine_fireOwn (kind : ReportKind) (fresh : Bool) :
    OnlyItsLine s (s.fireOwn x kind fresh) x fun l =>
      if LastFire (s.slot x) then releasedBy x (acted (s.slot x).config.action (s.slot x).config.width fresh l)
      else acted (s.slot x).config.action (s.slot x).config.width fresh l := by
  intro m
  simp only [s.line_fireOwn, acted_eq]
  exact if_congr Iff.rfl (if_congr (lastFire_iff _) rfl rfl) rfl

theorem onlyItsRun_cancelSlot (r : ListRef) (cut : Bool) (aux : Aux) :
    OnlyItsRun s (s.cancelSlot r x cut aux) x heldRun :=
  onlyItsRun_of (s.slot_cancelSlot r x cut aux) fun _ h => s.slot_cancelSlot_ne r x cut aux h

theorem onlyItsLine_cancelSlot (r : ListRef) (cut : Bool) (aux : Aux) :
    OnlyItsLine s (s.cancelSlot r x cut aux) x fun l => releasedBy x (if cut then l.cut x else l) :=
  s.line_cancelSlot r x cut aux

end

/-! ## The fire (R62 to R65) -/

section

variable (s : State) (x : SlotNo) (kind : ReportKind) (fresh : Bool)

/-- Steps 1 to 3 of a fire are the statements' own steps. -/
theorem firesItself_fireOwn : FiresItself s (s.fireOwn x kind fresh) x kind fresh := by
  refine ⟨(s.fireOwn_schedStep x kind fresh).eq_update, ?_, fun h => ?_, fun h => ?_, fun r hr => ?_,
    onlyItsLine_fireOwn s x kind fresh, ?_⟩
  · rw [← State.runAfter_eq]
    exact onlyItsRun_fireOwn s x kind fresh
  · exact s.list_fireOwn_last x kind fresh ((lastFire_iff _).2 h)
  · rw [s.list_fireOwn_again x kind fresh ((lastFire_eq_false_iff _).2 h)]
    exact insertedByDistance_insert _ _ _
  · exact s.list_fireOwn_ne x kind fresh hr
  · rw [s.reports_fireOwn, fireReport_eq]
    rfl

/-- The claim and the insertion of a slot whose due point is not reached (R54, R55). -/
theorem armedInto_armInto (due : Word) : ArmedInto s ((s.withClaim x).armInto x due) x due := by
  have hlist := (s.withClaim x).list_armInto x due
  rw [s.slot_withClaim, s.list_withClaim] at hlist
  have hrun := onlyItsRun_armInto (s.withClaim x) x due
  simp only [OnlyItsRun, s.slot_withClaim] at hrun
  refine ⟨hrun, ?_, fun r hr => ?_, onlyItsLine_withClaim s x, ?_⟩
  · rw [hlist]
    exact insertedByDistance_insert _ _ _
  · rw [State.list_armInto_ne _ _ _ (by simpa using hr), s.list_withClaim]
  · rw [State.reports_armInto, s.reports_withClaim]

/-- The claim and the insertion reach slots, lists and lines only. -/
theorem armInto_eq_update (due : Word) :
    (s.withClaim x).armInto x due = ((s.withSlots ((s.withClaim x).armInto x due).slots).withSched
      ((s.withClaim x).armInto x due).sched).withLines ((s.withClaim x).armInto x due).lines := by
  unfold State.withClaim
  split <;> rfl

/-! ### The checks of a chain attempt (R73) -/

theorem badOffset_chain_iff (c : SlotConfig) : c.badOffset .chain = true ↔ BadChainOffset c := by
  simp [SlotConfig.badOffset, overlapsItself_iff, BadChainOffset, or_assoc]

theorem chainPasses_iff (y : SlotNo) :
    ChainPasses s y ↔ (s.slot y).run.state = .held ∧ ¬ BadChainOffset (s.slot y).config ∧ LineGranted s y := by
  have hpos : 1 ≤ (s.slot y).config.offset.toNat ↔ (s.slot y).config.offset ≠ 0 := by
    rw [ne_eq, ← BitVec.toNat_inj, Nat.one_le_iff_ne_zero]; rfl
  simp only [ChainPasses, BadChainOffset, hpos, not_or, not_le, and_assoc]

/-- A successor that passes its checks is armed one due/offset after its own counter (R73). -/
theorem chainAttempt_passes {y : SlotNo} (hstop : s.stop.level = .high) (h : ChainPasses s y) :
    s.chainAttempt y =
      .ok ((s.withClaim y).armInto y (s.now (s.slot y).config.timebase + (s.slot y).config.offset)) := by
  obtain ⟨hheld, hoffset, hline⟩ := (chainPasses_iff s y).1 h
  rw [← badOffset_chain_iff] at hoffset
  rw [← lineFree_iff] at hline
  rcases s.chainAttempt_cases y with ⟨o, hfail, -⟩ | ⟨-, hok⟩
  · rcases s.passChecks_cases y .chain with ⟨h1, -⟩ | ⟨-, h1, -⟩ | ⟨-, -, h1, -⟩ | ⟨-, -, -, h1, -⟩ | ⟨-, -, -, -, h1⟩
    · rw [hstop] at h1; cases h1
    · exact absurd hheld h1
    · exact absurd h1 hoffset
    · exact absurd hline h1
    · rw [hfail] at h1; cases h1
  · exact hok

/-- A successor that fails a check gives the cause of the first that fails (R73, R75). -/
theorem chainAttempt_refused {y : SlotNo} {cause : ChainCause} (hstop : s.stop.level = .high)
    (h : ChainRefused s y cause) : ∃ o, s.chainAttempt y = .error o ∧ o ≠ .stopped ∧ o.cause = cause := by
  simp only [ChainRefused, ← badOffset_chain_iff, ← lineFree_iff] at h
  have hattempt : ∀ {o}, s.passChecks .chain y = .error o → s.chainAttempt y = .error o := fun ho => by
    simp only [State.chainAttempt, ho]
  rcases s.passChecks_cases y .chain with
    ⟨h1, -⟩ | ⟨-, h1, ho⟩ | ⟨-, h1, h2, ho⟩ | ⟨-, h1, h2, h3, ho⟩ | ⟨-, h1, h2, h3, -⟩
  · rw [hstop] at h1; cases h1
  · exact ⟨_, hattempt ho, by decide, by simp_all [OpOutcome.cause]⟩
  · exact ⟨_, hattempt ho, by decide, by simp_all [OpOutcome.cause]⟩
  · exact ⟨_, hattempt ho, by decide, by simp_all [OpOutcome.cause]⟩
  · simp_all

/-- The chain attempt of a fire arms a successor that passes its checks (R65, R73). -/
theorem chainArmed_chainFrom {y : SlotNo} (fault : ChainCause → Report) (hstop : s.stop.level = .high)
    (h : ChainPasses s y) : ChainArmed s (s.chainFrom y fault) y := by
  rw [State.chainFrom, chainAttempt_passes s hstop h]
  exact ⟨armedInto_armInto s y _, armInto_eq_update s y _⟩

/-- A refused chain attempt posts the fault with its cause and changes nothing else (R75, R76). -/
theorem chainFrom_refused {y : SlotNo} {cause : ChainCause} (fault : ChainCause → Report)
    (hstop : s.stop.level = .high) (h : ChainRefused s y cause) : s.chainFrom y fault = s.post (fault cause) := by
  obtain ⟨o, ho, hne, rfl⟩ := chainAttempt_refused s hstop h
  simp only [State.chainFrom, ho]

/-- A fire is its own three steps and then the chain attempt on the state they leave. -/
theorem fire_chained (h : (s.slot x).config.chainEnable = true) :
    s.fire x kind fresh =
      (s.fireOwn x kind fresh).chainFrom (s.slot x).config.successor (s.chainFaultReport x) := by
  rw [State.fire, if_pos h]

/-- The fire of the model is the fire of the statements, whole (R62). -/
theorem fires_fire : Fires s (s.fire x kind fresh) x kind fresh := by
  refine ⟨_, firesItself_fireOwn s x kind fresh, fun h => s.fire_unchained x kind fresh h, fun h hstop => ?_⟩
  rw [fire_chained s x kind fresh h]
  refine ⟨chainArmed_chainFrom _ _ hstop, fun cause hcause => ?_⟩
  rw [chainFrom_refused _ _ hstop hcause, chainFaultReport_eq]
  rfl

end

end Sys2Proof.Machine
end

section
/-! PROOFS. The laws of the slots, their lists and the order of the due lists (R49 to R51), stated with the slots that are
about to fire set apart, and what each operation of the scheduler does to them. -/

namespace Sys2Proof.Machine

/-! ## Where a slot stands -/

theorem standsIn_armed {v : Slot} (h : v.run.state = .armed) : v.standsIn = some (.due v.config.timebase) := by
  simp [Slot.standsIn, h]

/-- A slot that is neither ARMED nor WAITING. -/
abbrev Idle (v : Slot) : Prop := v.run.state = .held ∨ v.run.state = .free

theorem standsIn_idle {v : Slot} (h : Idle v) : v.standsIn = none := by
  rcases h with h | h <;> simp [Slot.standsIn, h]

theorem idle_of_standsIn {v : Slot} (hw : SlotWf v) (h : v.standsIn = none) : Idle v := by
  cases hs : v.run.state with
  | free => exact .inr hs
  | held => exact .inl hs
  | armed => rw [standsIn_armed hs] at h; cases h
  | waiting =>
    obtain ⟨-, -, hstate⟩ := hw
    simp only [hs] at hstate
    obtain ⟨n, hn⟩ := Option.isSome_iff_exists.1 hstate.1
    simp [Slot.standsIn, hs, hn] at h

/-- A slot in a due list is ARMED on its timebase, and one in a wait list is WAITING. -/
theorem state_of_standsIn_due {v : Slot} {tb : Timebase} (h : v.standsIn = some (.due tb)) :
    v.run.state = .armed ∧ v.config.timebase = tb := by
  cases hs : v.run.state <;> simp [Slot.standsIn, hs] at h
  exact ⟨rfl, h⟩

theorem state_of_standsIn_wait {v : Slot} {n : TrigNo} (h : v.standsIn = some (.wait n)) :
    v.run.state = .waiting ∧ v.run.bound = some n := by
  cases hs : v.run.state <;> simp [Slot.standsIn, hs] at h
  exact ⟨rfl, h⟩

theorem armed_or_waiting_of_standsIn {v : Slot} {r : ListRef} (h : v.standsIn = some r) :
    v.run.state = .armed ∨ v.run.state = .waiting := by
  cases r with
  | due tb => exact .inl (state_of_standsIn_due h).1
  | wait n => exact .inr (state_of_standsIn_wait h).1

/-! ## Slot records (Tables 2-4 to 2-6) -/

theorem slotWf_held {v : Slot} (h : SlotWf v) : SlotWf { v with run := .held } := ⟨h.1, h.2.1, rfl⟩

/-- The starting countdown is at least 1, or unlimited and 0 (Table 2-4). -/
theorem countWf_start {c : SlotConfig} {r : RunPart} (hr : r.remaining = c.startRemaining)
    (hu : r.unlimited = c.startUnlimited) : CountWf ⟨c, r⟩ := by
  simp only [CountWf, hr, hu, SlotConfig.startRemaining, SlotConfig.startUnlimited]
  by_cases hp : c.period = 0 <;> simp_all

theorem slotWf_armedRun {v : Slot} (h : SlotWf v) (due : Word) :
    SlotWf { v with run := v.config.armedRun due } :=
  ⟨h.1, h.2.1, rfl, countWf_start rfl rfl⟩

theorem slotWf_waitingRun {v : Slot} (h : SlotWf v) (n : TrigNo) (ho : v.config.offset.toNat < 2 ^ 31) :
    SlotWf { v with run := v.config.waitingRun n } :=
  ⟨h.1, h.2.1, rfl, rfl, ho, countWf_start rfl rfl⟩

theorem slotWf_armed {v : Slot} (h : SlotWf v) (hs : v.run.state = .armed) : v.run.bound = none ∧ CountWf v := by
  obtain ⟨-, -, hstate⟩ := h
  simpa only [hs] using hstate

theorem slotWf_waiting {v : Slot} (h : SlotWf v) (hs : v.run.state = .waiting) :
    v.config.offset.toNat < 2 ^ 31 ∧ CountWf v := by
  obtain ⟨-, -, hstate⟩ := h
  simp only [hs] at hstate
  exact hstate.2.2

/-- A WAITING slot that is bound keeps its countdown (R106). -/
theorem slotWf_boundRun {v : Slot} (h : SlotWf v) (hs : v.run.state = .waiting) (due : Word) :
    SlotWf { v with run := v.run.boundRun due } :=
  ⟨h.1, h.2.1, rfl, (slotWf_waiting h hs).2⟩

/-- A fire that is not the last leaves a countdown of at least 1, or unlimited and 0 (R64). -/
theorem slotWf_firedAgain {v : Slot} (h : SlotWf v) (hs : v.run.state = .armed) (hl : v.lastFire = false) (due : Word) :
    SlotWf { v with run := { v.run with remaining := v.remainingAfter, due := due } } := by
  obtain ⟨hbound, hunlimited, hlimited⟩ := slotWf_armed h hs
  refine ⟨h.1, h.2.1, ?_⟩
  simp only [hs]
  refine ⟨hbound, fun (hu : v.run.unlimited = true) => ⟨by simp [Slot.remainingAfter, hl, hu], (hunlimited hu).2⟩,
    fun (hu : v.run.unlimited = false) => ?_⟩
  have hmore : v.run.remaining ≠ 1 := fun h1 => by simp [Slot.lastFire, hu, h1] at hl
  have hsome := hlimited hu
  simp only [Slot.remainingAfter, hl, hu, Bool.false_eq_true, if_false]
  bv_omega

theorem period_of_not_lastFire {v : Slot} (hl : v.lastFire = false) : v.config.period ≠ 0 := fun h => by
  simp [Slot.lastFire, h] at hl

/-! ## The laws with some slots about to fire -/

/-- The laws of slots, lists and order (R49 to R51) in a state in which the slots of `F` are about to fire: such a slot
need not stand in its list, and its due point may be reached. -/
structure Standing (F : List SlotNo) (s : State) : Prop where
  slots : ∀ x, SlotWf (s.slot x)
  nodup : ∀ r, (s.list r).Nodup
  stands : ∀ x r, x ∈ s.list r → (s.slot x).standsIn = some r
  listed : ∀ x r, (s.slot x).standsIn = some r → x ∉ F → x ∈ s.list r
  sorted : ∀ tb, (s.list (.due tb)).Pairwise fun x y => s.distanceOn tb x ≤ s.distanceOn tb y
  ahead : ∀ tb, ∀ x ∈ s.list (.due tb), x ∉ F → 1 ≤ s.distanceOn tb x ∧ s.distanceOn tb x ≤ 2 ^ 31

/-- With no slot about to fire these are the laws of the statements. -/
theorem standing_nil_iff {s : State} :
    Standing [] s ↔ (∀ x, SlotWf (s.slot x)) ∧ ListsWf s ∧ OrderWf s := by
  constructor
  · intro h
    exact ⟨h.slots, ⟨h.nodup, fun x r => ⟨h.stands x r, fun hx => h.listed x r hx (by simp)⟩⟩,
      fun tb => ⟨h.sorted tb, fun x hx => h.ahead tb x hx (by simp)⟩⟩
  · rintro ⟨hslots, ⟨hnodup, hmem⟩, horder⟩
    exact ⟨hslots, hnodup, fun x r => (hmem x r).1, fun x r hx _ => (hmem x r).2 hx, fun tb => (horder tb).1,
      fun tb x hx _ => (horder tb).2 x hx⟩

theorem distanceOn_congr {s t : State} {tb : Timebase} {x : SlotNo} (hnow : t.now tb = s.now tb)
    (hslot : t.slot x = s.slot x) : t.distanceOn tb x = s.distanceOn tb x := by
  rw [State.distanceOn, State.distanceOn, hnow, hslot]

namespace Standing

variable {F : List SlotNo} {s t : State} {x : SlotNo}

theorem mono {G : List SlotNo} (h : Standing F s) (hF : ∀ y ∈ F, y ∈ G) : Standing G s :=
  ⟨h.slots, h.nodup, h.stands, fun y r hy hG => h.listed y r hy fun hyF => hG (hF y hyF), h.sorted,
    fun tb y hy hG => h.ahead tb y hy fun hyF => hG (hF y hyF)⟩

theorem cons (h : Standing F s) (x : SlotNo) : Standing (x :: F) s := h.mono fun _ => List.mem_cons_of_mem x

/-- The laws read slots, lists and counters only. -/
theorem congr (h : Standing F s) (hslot : ∀ y, t.slot y = s.slot y) (hlist : ∀ r, t.list r = s.list r)
    (hnow : ∀ tb, t.now tb = s.now tb) : Standing F t := by
  have hdist : ∀ tb y, t.distanceOn tb y = s.distanceOn tb y := fun tb y => distanceOn_congr (hnow tb) (hslot y)
  constructor <;> simp only [hslot, hlist, hdist]
  exacts [h.slots, h.nodup, h.stands, h.listed, h.sorted, h.ahead]

/-- A slot that is neither ARMED nor WAITING stands in no list. -/
theorem not_mem_of_idle (h : Standing F s) (hx : Idle (s.slot x)) (r : ListRef) : x ∉ s.list r := fun hr => by
  have := h.stands x r hr
  rw [standsIn_idle hx] at this
  cases this

/-- A slot stands in no list but the one that its state names. -/
theorem not_mem_of_ne (h : Standing F s) {r q : ListRef} (hx : (s.slot x).standsIn = some r) (hq : q ≠ r) :
    x ∉ s.list q := fun hmem => by
  have := h.stands x q hmem
  rw [hx] at this
  exact hq (Option.some.inj this).symm

/-- A slot about to fire is taken out of a list. -/
theorem removeFrom (h : Standing (x :: F) s) (r : ListRef) : Standing (x :: F) (s.removeFrom r x) := by
  have hsub : ∀ q, ((s.removeFrom r x).list q).Sublist (s.list q) := fun q => by
    by_cases hq : q = r
    · subst hq; rw [State.list_removeFrom]; exact List.erase_sublist
    · rw [State.list_removeFrom_ne _ _ hq]
  have hdist : ∀ tb y, (s.removeFrom r x).distanceOn tb y = s.distanceOn tb y := fun tb y =>
    distanceOn_congr (s.now_removeFrom tb x r) (s.slot_removeFrom r x y)
  refine ⟨h.slots, fun q => (h.nodup q).sublist (hsub q), fun y q hy => h.stands y q ((hsub q).subset hy),
    fun y q hy hyF => ?_, fun tb => ?_, fun tb y hy hyF => ?_⟩
  · have hmem := h.listed y q hy hyF
    have hne : y ≠ x := fun e => hyF (e ▸ List.mem_cons_self)
    by_cases hq : q = r
    · subst hq; rw [State.list_removeFrom]; exact (List.mem_erase_of_ne hne).2 hmem
    · rwa [State.list_removeFrom_ne _ _ hq]
  · simp only [hdist]
    exact (h.sorted tb).sublist (hsub _)
  · rw [hdist]
    exact h.ahead tb y ((hsub _).subset hy) hyF

/-- A slot about to fire, once taken out of the list it stands in, stands in none. -/
theorem not_mem_removeFrom (h : Standing F s) {r : ListRef} (hx : (s.slot x).standsIn = some r) (q : ListRef) :
    x ∉ (s.removeFrom r x).list q := by
  by_cases hq : q = r
  · subst hq
    rw [State.list_removeFrom]
    exact fun hmem => ((h.nodup q).mem_erase_iff.1 hmem).1 rfl
  · rw [State.list_removeFrom_ne _ _ hq]
    exact h.not_mem_of_ne hx hq

/-- The record of a slot that stands in no list is replaced. -/
theorem setSlot (h : Standing (x :: F) s) (hx : ∀ r, x ∉ s.list r) {v : Slot} (hv : SlotWf v) :
    Standing (x :: F) (s.setSlot x v) := by
  have hne : ∀ {r y}, y ∈ s.list r → y ≠ x := fun {r y} hy e => hx r (e ▸ hy)
  have hslot : ∀ {r y}, y ∈ s.list r → (s.setSlot x v).slot y = s.slot y := fun hy => s.slot_setSlot_ne v (hne hy)
  have hdist : ∀ {tb r y}, y ∈ s.list r → (s.setSlot x v).distanceOn tb y = s.distanceOn tb y := fun {tb r y} hy =>
    distanceOn_congr (s.now_setSlot tb x v) (hslot hy)
  refine ⟨fun y => ?_, h.nodup, fun y r hy => ?_, fun y r hy hyF => ?_, fun tb => ?_, fun tb y hy hyF => ?_⟩
  · rw [s.slot_setSlot_if]
    split
    · exact hv
    · exact h.slots y
  · rw [hslot hy]
    exact h.stands y r hy
  · rw [s.slot_setSlot_ne v fun e : y = x => hyF (e ▸ List.mem_cons_self)] at hy
    exact h.listed y r hy hyF
  · refine (h.sorted tb).imp_of_mem fun ha hb hab => ?_
    rwa [hdist ha, hdist hb]
  · rw [hdist hy]
    exact h.ahead tb y hy hyF

theorem setRun (h : Standing (x :: F) s) (hx : ∀ r, x ∉ s.list r) {r : RunPart}
    (hv : SlotWf { s.slot x with run := r }) : Standing (x :: F) (s.setRun x r) := h.setSlot hx hv

/-- A slot that is neither ARMED nor WAITING is no longer about to fire. -/
theorem settle (h : Standing (x :: F) s) (hx : Idle (s.slot x)) : Standing F s := by
  refine ⟨h.slots, h.nodup, h.stands, fun y r hy hyF => ?_, h.sorted, fun tb y hy hyF => ?_⟩
  · refine h.listed y r hy fun hmem => ?_
    rcases List.mem_cons.1 hmem with rfl | hmem
    · rw [standsIn_idle hx] at hy; cases hy
    · exact hyF hmem
  · refine h.ahead tb y hy fun hmem => ?_
    rcases List.mem_cons.1 hmem with rfl | hmem
    · exact h.not_mem_of_idle hx _ hy
    · exact hyF hmem

/-- A slot that stands in no list is inserted in its due list, at a distance of 1 to 2^31 (R50, R51). -/
theorem insertDue (h : Standing (x :: F) s) (hx : ∀ r, x ∉ s.list r) {tb : Timebase}
    (hs : (s.slot x).standsIn = some (.due tb)) (hd : 1 ≤ s.distanceOn tb x ∧ s.distanceOn tb x ≤ 2 ^ 31) :
    Standing F (s.insertDue tb x) := by
  have hmem : ∀ {r y}, y ∈ (s.insertDue tb x).list r → (y = x ∧ r = .due tb) ∨ y ∈ s.list r := fun {r y} hy => by
    by_cases hr : r = .due tb
    · subst hr
      rw [State.list_insertDue, mem_insertByDistance] at hy
      exact hy.imp_left fun e => ⟨e, rfl⟩
    · exact .inr (by rwa [State.list_insertDue_ne _ _ hr] at hy)
  have hdist : ∀ tb' y, (s.insertDue tb x).distanceOn tb' y = s.distanceOn tb' y := fun tb' y =>
    distanceOn_congr (s.now_insertDue tb' x tb) (s.slot_insertDue tb x y)
  have hcons : ∀ {y}, y ≠ x → y ∉ F → y ∉ x :: F := fun hne hF hc => (List.mem_cons.1 hc).elim hne hF
  refine ⟨h.slots, fun r => ?_, fun y r hy => ?_, fun y r hy hyF => ?_, fun tb' => ?_, fun tb' y hy hyF => ?_⟩
  · by_cases hr : r = .due tb
    · subst hr
      rw [State.list_insertDue]
      exact nodup_insertByDistance _ (h.nodup _) (hx _)
    · rw [State.list_insertDue_ne _ _ hr]
      exact h.nodup r
  · rcases hmem hy with ⟨rfl, rfl⟩ | hy
    · exact hs
    · exact h.stands y r hy
  · by_cases hyx : y = x
    · subst hyx
      obtain rfl : r = .due tb := Option.some.inj (hy.symm.trans hs)
      rw [State.list_insertDue, mem_insertByDistance]
      exact .inl rfl
    · have hold := h.listed y r hy (hcons hyx hyF)
      by_cases hr : r = .due tb
      · subst hr
        rw [State.list_insertDue, mem_insertByDistance]
        exact .inr hold
      · rwa [State.list_insertDue_ne _ _ hr]
  · simp only [hdist]
    by_cases htb : tb' = tb
    · subst htb
      rw [State.list_insertDue]
      exact sorted_insertByDistance _ _ (h.sorted tb')
    · rw [State.list_insertDue_ne _ _ fun e => htb (ListRef.due.inj e)]
      exact h.sorted tb'
  · rw [hdist]
    rcases hmem hy with ⟨rfl, htb⟩ | hold
    · obtain rfl := ListRef.due.inj htb
      exact hd
    · exact h.ahead tb' y hold (hcons (fun e => hx _ (e ▸ hold)) hyF)

/-- A slot that stands in no list is put at the tail of its wait list (R59). -/
theorem append (h : Standing (x :: F) s) (hx : ∀ r, x ∉ s.list r) {n : TrigNo}
    (hs : (s.slot x).standsIn = some (.wait n)) :
    Standing F (s.setList (.wait n) (s.list (.wait n) ++ [x])) := by
  have hdist : ∀ tb y, (s.setList (.wait n) (s.list (.wait n) ++ [x])).distanceOn tb y = s.distanceOn tb y := fun tb y =>
    distanceOn_congr (s.now_setList tb _ _) (s.slot_setList _ _ y)
  have hdue : ∀ tb, (s.setList (.wait n) (s.list (.wait n) ++ [x])).list (.due tb) = s.list (.due tb) := fun tb =>
    s.list_setList_ne _ (by simp)
  have hcons : ∀ {y}, y ≠ x → y ∉ F → y ∉ x :: F := fun hne hF hc => (List.mem_cons.1 hc).elim hne hF
  refine ⟨h.slots, fun r => ?_, fun y r hy => ?_, fun y r hy hyF => ?_, fun tb => ?_, fun tb y hy hyF => ?_⟩
  · by_cases hr : r = .wait n
    · subst hr
      rw [State.list_setList, List.nodup_append]
      exact ⟨h.nodup _, List.nodup_singleton x, fun a ha b hb e => hx _ (List.mem_singleton.1 hb ▸ e ▸ ha)⟩
    · rw [State.list_setList_ne _ _ hr]
      exact h.nodup r
  · by_cases hr : r = .wait n
    · subst hr
      rw [State.list_setList, List.mem_append, List.mem_singleton] at hy
      rcases hy with hy | rfl
      · exact h.stands y _ hy
      · exact hs
    · rw [State.list_setList_ne _ _ hr] at hy
      exact h.stands y r hy
  · by_cases hyx : y = x
    · subst hyx
      obtain rfl : r = .wait n := Option.some.inj (hy.symm.trans hs)
      simp
    · have hold := h.listed y r hy (hcons hyx hyF)
      by_cases hr : r = .wait n
      · subst hr
        rw [State.list_setList]
        exact List.mem_append_left _ hold
      · rwa [State.list_setList_ne _ _ hr]
  · simp only [hdist, hdue]
    exact h.sorted tb
  · rw [hdist]
    rw [hdue] at hy
    exact h.ahead tb y hy (hcons (fun e => hx _ (e ▸ hy)) hyF)

/-! ## The operations of the scheduler -/

/-- A slot that is neither ARMED nor WAITING may take any such record. -/
theorem setSlot_idle (h : Standing F s) (hx : Idle (s.slot x)) {v : Slot} (hv : SlotWf v) (hi : Idle v) :
    Standing F (s.setSlot x v) :=
  ((h.cons x).setSlot (h.not_mem_of_idle hx) hv).settle (by rwa [State.slot_setSlot])

/-- A HELD slot is armed and inserted (R55). -/
theorem armInto (h : Standing F s) (hx : Idle (s.slot x)) (due : Word)
    (hd : 1 ≤ distance (s.now (s.slot x).config.timebase) due ∧
      distance (s.now (s.slot x).config.timebase) due ≤ 2 ^ 31) : Standing F (s.armInto x due) := by
  refine ((h.cons x).setRun (h.not_mem_of_idle hx) (slotWf_armedRun (h.slots x) due)).insertDue
    (h.not_mem_of_idle hx) ?_ ?_
  · rw [s.slot_setRun]
    exact standsIn_armed rfl
  · rwa [State.distanceOn, s.slot_setRun, s.now_setRun]

/-- Step 3 of a fire: the slot is HELD, or stands again one period ahead (R64). -/
theorem countDown (h : Standing (x :: F) s) (hx : (s.slot x).run.state = .armed) : Standing F (s.countDown x) := by
  have hout := h.not_mem_removeFrom (standsIn_armed hx)
  have hrem := h.removeFrom (.due (s.slot x).config.timebase)
  cases hl : (s.slot x).lastFire with
  | true =>
    rw [s.countDown_last hl]
    refine Standing.settle (x := x) ((hrem.setRun hout (slotWf_held (h.slots x))).congr
      (State.slot_releaseLine _ x) (State.list_releaseLine _ x) fun tb => State.now_releaseLine _ tb x) ?_
    rw [State.slot_releaseLine, State.slot_setRun]
    exact .inl rfl
  | false =>
    rw [s.countDown_again hl]
    refine (hrem.setRun hout (slotWf_firedAgain (h.slots x) hx hl _)).insertDue hout ?_ ?_
    · rw [State.slot_setRun]
      exact standsIn_armed hx
    · have hperiod := (h.slots x).1
      have hpos := period_of_not_lastFire hl
      rw [State.distanceOn, State.slot_setRun, State.now_setRun, State.now_removeFrom, distance_add]
      refine ⟨?_, hperiod.le⟩
      bv_omega

/-- Steps 1 to 3 of a fire (R62 to R64). -/
theorem fireOwn (h : Standing (x :: F) s) (hx : (s.slot x).run.state = .armed) (kind : ReportKind) (fresh : Bool) :
    Standing F (s.fireOwn x kind fresh) := by
  refine Standing.countDown (x := x) (h.congr (fun y => ?_) (fun r => ?_) fun tb => ?_) ?_
  · rw [State.slot_postIf, State.slot_actOnLine]
  · rw [State.list_postIf, State.list_actOnLine]
  · rw [State.now_postIf, State.now_actOnLine]
  · rwa [State.slot_postIf, State.slot_actOnLine]

/-- A slot that leaves its list becomes HELD (R66). -/
theorem toHeld (h : Standing F s) {r : ListRef} (hx : (s.slot x).standsIn = some r) : Standing F (s.toHeld r x) := by
  refine Standing.settle (x := x)
    (((h.cons x).removeFrom r).setRun (h.not_mem_removeFrom hx) (slotWf_held (h.slots x))) ?_
  exact .inl (by rw [State.slot_toHeld]; rfl)

theorem cancelSlot (h : Standing F s) {r : ListRef} (hx : (s.slot x).standsIn = some r) (cut : Bool) (aux : Aux) :
    Standing F (s.cancelSlot r x cut aux) := by
  refine (h.toHeld hx).congr (fun y => ?_) (fun q => ?_) fun tb => ?_ <;> cases cut <;> simp [State.cancelSlot]

end Standing

end Sys2Proof.Machine
end

section
/-! PROOFS. The laws of the lines (R87, R89) line by line, each operation of the line unit on a line that meets them, and
the invariant of the schedule: every step keeps it. -/

namespace Sys2Proof.Machine

open Sys2Proof.Claims

/-! ## The laws of one line -/

/-- The single-owner law and the pulse law of one line (R87, R89); `holds` tells which slots are ARMED or WAITING with an
action on it. -/
structure LineLaw (holds : SlotNo → Bool) (l : Line) : Prop where
  owned : ∀ x, holds x = true → l.owner = some x
  owner : ∀ x, l.owner = some x → holds x = true ∨ l.countdown ≠ 0
  forced : l.forced = true → l.owner = none
  pulse : l.countdown ≠ 0 → l.logical = .active ∧ l.owner ≠ none

/-- Every line keeps the two laws. -/
def LineLaws (s : State) : Prop := ∀ l, LineLaw (s.holds l) (s.line l)

theorem lineLaws_iff (s : State) : LineLaws s ↔ OwnerWf s ∧ PulseWf s := by
  constructor
  · intro h
    refine ⟨⟨fun x hx => ?_, fun l ho => ?_, fun l => (h l).forced⟩, fun l => (h l).pulse⟩
    · exact (h _).owned x ((s.holds_iff _ x).2 ⟨hx.1, hx.2, rfl⟩)
    · obtain ⟨o, ho⟩ := Option.ne_none_iff_exists'.1 ho
      exact ((h l).owner o ho).imp_left fun hh => (s.ownerHolds_iff l).2 ⟨o, ho, hh⟩
  · rintro ⟨⟨howned, howner, hforced⟩, hpulse⟩ l
    refine ⟨fun x hx => ?_, fun x ho => ?_, hforced l, hpulse l⟩
    · obtain ⟨hstate, haction, rfl⟩ := (s.holds_iff l x).1 hx
      exact howned x ⟨hstate, haction⟩
    · refine (howner l (by rw [ho]; simp)).imp_left fun hh => ?_
      obtain ⟨o, ho', hh⟩ := (s.ownerHolds_iff l).1 hh
      obtain rfl := Option.some.inj (ho'.symm.trans ho)
      exact hh

namespace LineLaw

variable {holds : SlotNo → Bool} {l : Line} {x : SlotNo}

/-- A line without an owner, a pulse and the forced flag, that no slot holds. -/
theorem of_unowned (hh : ∀ x, holds x = false) (ho : l.owner = none) (hc : l.countdown = 0) : LineLaw holds l :=
  ⟨fun x hx => by simp [hh x] at hx, fun x hx => by simp [ho] at hx, fun _ => ho, fun h => absurd hc h⟩

/-- The record of a line that no slot owns may change in every other field. -/
theorem of_no_owner {l' : Line} (h : LineLaw holds l) (ho : l.owner = none) (ho' : l'.owner = none)
    (hc : l'.countdown = l.countdown) : LineLaw holds l' := by
  refine of_unowned (fun x => ?_) ho' ?_
  · rw [Bool.eq_false_iff]
    intro hx
    rw [h.owned x hx] at ho
    cases ho
  · rw [hc]
    by_contra hne
    exact (h.pulse hne).2 ho

/-- An action of a slot that holds the line (R84, R85). -/
theorem act (h : LineLaw holds l) (hx : holds x = true) (a : Action) {w : Half} (hw : a = .pulse → w ≠ 0)
    (fresh : Bool) : LineLaw holds (l.act a w fresh) := by
  have ho := h.owned x hx
  have hkeep : ∀ y, l.owner = some y → holds y = true := fun y hy => by
    rw [ho] at hy
    exact Option.some.inj hy ▸ hx
  cases a with
  | none => exact h
  | set | clear | toggle => exact ⟨h.owned, fun y hy => .inl (hkeep y hy), h.forced, fun hc => absurd rfl hc⟩
  | pulse => exact ⟨h.owned, fun y hy => .inl (hkeep y hy), h.forced, fun _ => ⟨rfl, by simp [Line.act, ho]⟩⟩

/-- The release of the line by the one slot that holds it (R90). -/
theorem released {holds' : SlotNo → Bool} (h : LineLaw holds l) (hx : holds x = true)
    (hh : ∀ y, holds' y = true → y ≠ x ∧ holds y = true) : LineLaw holds' (l.released x) := by
  have ho := h.owned x hx
  have hnone : ∀ y, holds' y = false := fun y => by
    rw [Bool.eq_false_iff]
    intro hy
    obtain ⟨hne, hy⟩ := hh y hy
    exact hne (Option.some.inj ((h.owned y hy).symm.trans ho))
  by_cases hc : l.countdown = 0
  · exact of_unowned hnone (by simp [Line.released, ho, hc]) (by simp [Line.released, ho, hc])
  · rw [Line.released, if_neg fun hr => hc hr.2]
    exact ⟨fun y hy => by simp [hnone y] at hy, fun y _ => .inr hc, h.forced, h.pulse⟩

/-- The cut of the line by a slot that holds it (R97). -/
theorem cut (h : LineLaw holds l) (hx : holds x = true) : LineLaw holds (l.cut x) := by
  have ho := h.owned x hx
  rw [Line.cut, if_pos ho]
  refine ⟨h.owned, fun y hy => .inl ?_, h.forced, fun hc => absurd rfl hc⟩
  exact Option.some.inj (ho.symm.trans hy) ▸ hx

/-- A granted claim: the slot is then the only one that holds the line (R91). -/
theorem granted {holds' : SlotNo → Bool} (h : LineLaw holds l) (hfree : l.owner = some x ∨ ∀ y, holds y = false)
    (hx : holds' x = true) (hh : ∀ y, holds' y = true → y ≠ x → holds y = true) : LineLaw holds' (l.granted x) := by
  refine ⟨fun y hy => ?_, fun y hy => .inl ?_, fun hf => absurd hf Bool.false_ne_true,
    fun hc => ⟨(h.pulse hc).1, by simp [Line.granted]⟩⟩
  · by_cases hyx : y = x
    · rw [hyx]; rfl
    · have hold := hh y hy hyx
      rcases hfree with hfree | hfree
      · exact absurd (Option.some.inj ((h.owned y hold).symm.trans hfree)) hyx
      · simp [hfree y] at hold
  · exact Option.some.inj hy ▸ hx

theorem unforced (h : LineLaw holds l) : LineLaw holds { l with forced := false } :=
  ⟨h.owned, h.owner, fun hf => absurd hf Bool.false_ne_true, h.pulse⟩

/-- The line unit takes a base tick: a pulse that ends keeps only a holding owner (R86). -/
theorem tick (h : LineLaw holds l) {b : Bool} (hb : b = true ↔ ∃ o, l.owner = some o ∧ holds o = true) :
    LineLaw holds (l.tick b) := by
  unfold Line.tick
  split
  · exact ⟨h.owned, h.owner, h.forced, h.pulse⟩
  · split
    · exact h
    · split
      · cases b with
        | true =>
          obtain ⟨o, ho, hh⟩ := hb.1 rfl
          refine ⟨h.owned, fun y hy => .inl ?_, h.forced, fun hc => absurd rfl hc⟩
          exact Option.some.inj (ho.symm.trans hy) ▸ hh
        | false =>
          refine of_unowned (fun y => ?_) rfl rfl
          rw [Bool.eq_false_iff]
          intro hy
          exact Bool.false_ne_true (hb.2 ⟨y, h.owned y hy, hy⟩)
      · next hzero hone =>
        refine ⟨h.owned, fun y hy => .inr ?_, h.forced, fun _ => h.pulse hzero⟩
        simp only
        bv_omega

end LineLaw

/-! ## The laws under an update of one slot and its line -/

theorem holds_congr {s t : State} {y : SlotNo} (h : t.slot y = s.slot y) (l : LineNo) : t.holds l y = s.holds l y := by
  simp only [State.holds, h]

theorem holds_idle {s : State} {x : SlotNo} (h : Idle (s.slot x)) (l : LineNo) : s.holds l x = false := by
  rcases h with h | h <;> simp [State.holds, h]

namespace LineLaws

variable {s t : State} {x : SlotNo}

/-- The laws read slots and lines only. -/
theorem congr (h : LineLaws s) (hslot : ∀ y, t.slot y = s.slot y) (hline : ∀ l, t.line l = s.line l) : LineLaws t := by
  intro l
  rw [hline, show t.holds l = s.holds l from funext fun y => holds_congr (hslot y) l]
  exact h l

/-- Where one slot's run part and its line change, the other lines keep their laws. -/
theorem update {r : RunPart} {f : Line → Line} (h : LineLaws s) (hrun : OnlyItsRun s t x r) (hline : OnlyItsLine s t x f)
    (hx : (s.slot x).config.action ≠ .none →
      LineLaw (t.holds (s.slot x).config.line) (f (s.line (s.slot x).config.line))) : LineLaws t := by
  intro l
  rw [hline l]
  split
  · next hl => exact hl.2 ▸ hx hl.1
  · next hl =>
    have hnot : ∀ u : State, (u.slot x).config = (s.slot x).config → u.holds l x = false := fun u hu => by
      simp only [State.holds, hu, decide_eq_false_iff_not]
      rintro ⟨-, ha, rfl⟩
      exact hl ⟨ha, rfl⟩
    have hholds : t.holds l = s.holds l := by
      funext y
      have hy := hrun y
      by_cases hyx : y = x
      · subst hyx
        rw [hnot s rfl, hnot t (by rw [hy, if_pos rfl])]
      · rw [if_neg hyx] at hy
        exact holds_congr hy l
    rw [hholds]
    exact h l

/-- The slots that hold a line, where one run part has changed. -/
theorem holds_other {r : RunPart} (hrun : OnlyItsRun s t x r) {y : SlotNo} (hy : y ≠ x) (l : LineNo) :
    t.holds l y = s.holds l y := holds_congr (by rw [hrun y, if_neg hy]) l

/-- A slot that stays ARMED or WAITING holds the line that it held. -/
theorem holds_rerun {r : RunPart} (hrun : OnlyItsRun s t x r)
    (hx : (s.slot x).run.state = .armed ∨ (s.slot x).run.state = .waiting) (hr : r.state = .armed ∨ r.state = .waiting)
    (l : LineNo) : t.holds l = s.holds l := by
  funext y
  by_cases hyx : y = x
  · subst hyx
    simp only [State.holds, hrun y, if_pos, hx, hr]
  · exact holds_other hrun hyx l

/-- A slot that is neither ARMED nor WAITING may take any such record. -/
theorem setSlot_idle (h : LineLaws s) (hx : Idle (s.slot x)) {v : Slot} (hv : Idle v) : LineLaws (s.setSlot x v) := by
  intro l
  have hholds : (s.setSlot x v).holds l = s.holds l := by
    funext y
    by_cases hy : y = x
    · subst hy
      rw [holds_idle hx, holds_idle (by rwa [State.slot_setSlot])]
    · exact holds_congr (s.slot_setSlot_ne v hy) l
  rw [hholds]
  exact h l

/-- A claim granted to a slot that is then ARMED or WAITING (R91). -/
theorem claim {r : RunPart} (h : LineLaws s) (hfree : s.LineFree x) (hrun : OnlyItsRun s t x r)
    (hline : OnlyItsLine s t x (claimed x)) (hr : r.state = .armed ∨ r.state = .waiting) : LineLaws t := by
  refine h.update hrun hline fun ha => (h _).granted ?_ ?_ fun y hy hyx => ?_
  · have hc := hfree.resolve_left ha
    rw [Bool.eq_false_iff, ne_eq, State.claimRefused_iff] at hc
    by_cases ho : (s.line (s.slot x).config.line).owner = some x
    · exact .inl ho
    · refine .inr fun y => ?_
      rw [Bool.eq_false_iff]
      intro hy
      exact hc ⟨ho, (s.ownerHolds_iff _).2 ⟨y, (h _).owned y hy, hy⟩⟩
  · rw [State.holds_iff, hrun x, if_pos rfl]
    exact ⟨hr, ha, rfl⟩
  · rwa [holds_other hrun hyx] at hy

/-- A slot that holds its line gives it up as it becomes HELD (R66, R90). -/
theorem giveUp {f : Line → Line} (h : LineLaws s) (hx : (s.slot x).run.state = .armed ∨ (s.slot x).run.state = .waiting)
    (hrun : OnlyItsRun s t x .held) (hline : OnlyItsLine s t x fun l => (f l).released x)
    (hf : (s.slot x).config.action ≠ .none → ∀ l, LineLaw (s.holds (s.slot x).config.line) l →
      s.holds (s.slot x).config.line x = true → LineLaw (s.holds (s.slot x).config.line) (f l)) : LineLaws t := by
  refine h.update hrun hline fun ha => ?_
  have hholds : s.holds (s.slot x).config.line x = true := (s.holds_iff _ x).2 ⟨hx, ha, rfl⟩
  refine (hf ha _ (h _) hholds).released hholds fun y hy => ?_
  have hyx : y ≠ x := by
    rintro rfl
    rw [holds_idle (by rw [hrun y, if_pos rfl]; exact .inl rfl)] at hy
    cases hy
  exact ⟨hyx, by rwa [holds_other hrun hyx] at hy⟩

/-- Steps 1 to 3 of a fire (R62 to R64). -/
theorem fireOwn (h : LineLaws s) (hw : SlotWf (s.slot x)) (hx : (s.slot x).run.state = .armed) (kind : ReportKind)
    (fresh : Bool) : LineLaws (s.fireOwn x kind fresh) := by
  have hrun := onlyItsRun_fireOwn s x kind fresh
  have hline := onlyItsLine_fireOwn s x kind fresh
  have hact : (s.slot x).config.action ≠ .none → ∀ l, LineLaw (s.holds (s.slot x).config.line) l →
      s.holds (s.slot x).config.line x = true → LineLaw (s.holds (s.slot x).config.line)
        (acted (s.slot x).config.action (s.slot x).config.width fresh l) := fun _ l hl hh => by
    rw [acted_eq]
    exact hl.act hh _ hw.2.1 fresh
  by_cases hl : LastFire (s.slot x)
  · simp only [if_pos hl] at hline
    rw [State.runAfter_eq, if_pos hl] at hrun
    exact h.giveUp (.inl hx) hrun hline hact
  · simp only [if_neg hl] at hline
    refine h.update hrun hline fun ha => ?_
    have hholds : s.holds (s.slot x).config.line x = true := (s.holds_iff _ x).2 ⟨.inl hx, ha, rfl⟩
    rw [holds_rerun hrun (.inl hx) (.inl ?_)]
    · exact hact ha _ (h _) hholds
    · rw [State.runAfter_eq, if_neg hl]
      exact hx

/-- A disarm, with or without CUT (R66, R67). -/
theorem cancelSlot (h : LineLaws s) (hx : (s.slot x).run.state = .armed ∨ (s.slot x).run.state = .waiting)
    (r : ListRef) (cut : Bool) (aux : Aux) : LineLaws (s.cancelSlot r x cut aux) := by
  refine h.giveUp (f := fun l => if cut then l.cut x else l) hx (onlyItsRun_cancelSlot s x r cut aux)
    (onlyItsLine_cancelSlot s x r cut aux) fun _ l hl hh => ?_
  cases cut
  · exact hl
  · exact hl.cut hh

theorem lineTick (h : LineLaws s) : LineLaws s.lineTick := by
  intro l
  rw [State.line_lineTick]
  exact (h l).tick (s.ownerHolds_iff l)

end LineLaws

end Sys2Proof.Machine
end

section
/-! PROOFS. What an event can do, said once: the effects of a completion at the owning blocks, the effects of every row, and
the two inversions that the invariants are derived from. -/

namespace Sys2Proof.Machine

/-! ## The effects of a completion (chapter 10) -/

/-- From `s` to `t` a command without a transfer phase, or one whose checks fail, has had its effect at the owning block. -/
inductive Effect (s : State) : State → Prop where
  | none : Effect s s
  | arm (mode : ArmMode) (x : SlotNo) : Effect s (s.armAttempt mode x).state
  | armOnTrigger (x : SlotNo) (n : TrigNo) : Effect s (s.waitArm x n).state
  | cancel (x : SlotNo) (cut : Bool) : Effect s (s.cancel x cut).state
  | release (x : SlotNo) (h : (s.slot x).run.state = .held) : Effect s (s.freeSlot x)
  | clearReports : Effect s (s.withReports s.reports.cleared)
  | setTimebase (tb : Timebase) (w : Word) (h : s.list (.due tb) = []) :
      Effect s (s.setCounter tb { s.counterOf tb with count := w })
  | setRuns (o : Byte) (r : RunState) : Effect s (s.setRuns o r)
  | setTick (code : Fin 4) : Effect s (s.withTimebase { s.timebase with tickCode := code, clkCount := 0 })
  | results (p : Params) : Effect s (s.withParams p)
  | configureLine (l : LineNo) (p : Polarity) (v : Level) (h : (s.line l).owner = .none) :
      Effect s (s.setLine l ((s.line l).configure p v s.stopAsserted))
  | forceLine (l : LineNo) (v : Logical) (hs : s.stop.level = .high) (h : (s.line l).owner = .none) :
      Effect s (s.setLine l ((s.line l).force v))
  | configureTrigger (n : TrigNo) (c : Channel) : Effect s (s.setTrig n c)
  | flush (n : TrigNo) : Effect s (s.flush n)
  | queryTrigger (p : Params) (n : TrigNo) (c : Channel) : Effect s ((s.withParams p).setTrig n c)
  | setBlock (k : Nat) (h : 1 ≤ k ∧ k ≤ 8) : Effect s (s.withEngine { s.engine with blockSize := k })

section

variable (s : State) (p : Params)

theorem effect_completeArm : Effect s (s.completeArm p).state := by
  unfold State.completeArm
  split
  · exact .arm _ _
  · exact .none

theorem effect_completeArmOnTrigger : Effect s (s.completeArmOnTrigger p).state := by
  unfold State.completeArmOnTrigger
  split
  · exact .armOnTrigger _ _
  · exact .none

theorem effect_completeCancel : Effect s (s.completeCancel p).state := by
  unfold State.completeCancel
  split
  · exact .cancel _ _
  · exact .none

theorem effect_completeRelease : Effect s (s.completeRelease p).state := by
  unfold State.completeRelease
  split
  · split
    · next h => exact .release _ h
    · exact .none
  · exact .none

theorem effect_completeSetTimebase : Effect s (s.completeSetTimebase p).state := by
  unfold State.completeSetTimebase
  split
  · split
    · next h => exact .setTimebase _ _ h
    · exact .none
  · exact .none

theorem effect_completeHold : Effect s (s.completeHold p).state := by
  unfold State.completeHold
  split
  · exact .none
  · exact .setRuns _ _

theorem effect_completeResume : Effect s (s.completeResume p).state := by
  unfold State.completeResume
  split
  · exact .none
  · exact .setRuns _ _

theorem effect_completeReadTime : Effect s (s.completeReadTime p).state := by
  unfold State.completeReadTime
  split
  · exact .results _
  · exact .none

theorem effect_completeSetTick : Effect s (s.completeSetTick p).state := by
  unfold State.completeSetTick
  split
  · split
    · exact .none
    · exact .setTick _
  · exact .none

theorem effect_completeConfigureLine : Effect s (s.completeConfigureLine p).state := by
  unfold State.completeConfigureLine
  split
  · split
    · exact .none
    · next h => exact .configureLine _ _ _ (not_not.1 h)
  · exact .none

theorem effect_completeForceLine : Effect s (s.completeForceLine p).state := by
  unfold State.completeForceLine
  split
  · split
    · exact .none
    · next hs =>
      split
      · exact .none
      · next h => exact .forceLine _ _ ((stopAsserted_eq_false_iff s).1 (Bool.eq_false_iff.2 hs)) (not_not.1 h)
  · exact .none

theorem effect_completeQueryLine : Effect s (s.completeQueryLine p).state := by
  unfold State.completeQueryLine
  split
  · exact .results _
  · exact .none

theorem effect_completeConfigureTrigger : Effect s (s.completeConfigureTrigger p).state := by
  unfold State.completeConfigureTrigger
  split
  · exact .configureTrigger _ _
  · exact .none

theorem effect_completeFlushTrigger : Effect s (s.completeFlushTrigger p).state := by
  unfold State.completeFlushTrigger
  split
  · exact .flush _
  · exact .none

theorem effect_completeQueryTrigger : Effect s (s.completeQueryTrigger p).state := by
  unfold State.completeQueryTrigger
  split
  · exact .queryTrigger _ _ _
  · exact .none

theorem effect_completeSetBlock : Effect s (s.completeSetBlock p).state := by
  unfold State.completeSetBlock
  split
  · next h => exact .setBlock _ h
  · exact .none

/-- The effect of the command in progress, whatever it is. -/
theorem effect_complete : Effect s s.complete.state := by
  cases hc : s.engine.command with
  | none => simp only [State.complete, hc]; exact .none
  | some c =>
    simp only [State.complete, hc]
    cases c with
    | nop | armBatch | readReports | readDueList => exact .none
    | arm => exact effect_completeArm s _
    | armOnTrigger => exact effect_completeArmOnTrigger s _
    | cancel => exact effect_completeCancel s _
    | release => exact effect_completeRelease s _
    | clearReports => exact .clearReports
    | setTimebase => exact effect_completeSetTimebase s _
    | holdTimebase => exact effect_completeHold s _
    | resumeTimebase => exact effect_completeResume s _
    | readTime => exact effect_completeReadTime s _
    | setTick => exact effect_completeSetTick s _
    | configureLine => exact effect_completeConfigureLine s _
    | forceLine => exact effect_completeForceLine s _
    | queryLine => exact effect_completeQueryLine s _
    | configureTrigger => exact effect_completeConfigureTrigger s _
    | flushTrigger => exact effect_completeFlushTrigger s _
    | queryTrigger => exact effect_completeQueryTrigger s _
    | setBlock => exact effect_completeSetBlock s _

end

/-! ## The one block that an operation of the host port or the engine reaches -/

section

variable (s : State)

theorem reaches_recordRead : ∃ p, s.recordRead = s.withRecord p := by
  unfold State.recordRead
  split
  · exact ⟨_, rfl⟩
  · exact ⟨_, rfl⟩

theorem reaches_transferWrite (b : Byte) : ∃ e, s.transferWrite b = s.withEngine e := by
  simp only [State.transferWrite]
  split
  · split
    · exact ⟨_, rfl⟩
    · exact ⟨_, rfl⟩
  · exact ⟨s.engine, rfl⟩

theorem reaches_writeCommand (b : Byte) : ∃ e, s.writeCommand b = s.withEngine e := by
  unfold State.writeCommand
  split
  · exact ⟨_, rfl⟩
  · exact ⟨_, rfl⟩

theorem reaches_abortCommand : ∃ e, s.abortCommand = s.withEngine e := by
  unfold State.abortCommand
  split
  · exact ⟨s.engine, rfl⟩
  · exact ⟨_, rfl⟩

theorem reaches_prepareReports : ∃ e, s.prepareReports = s.withEngine e := by
  simp only [State.prepareReports]
  split
  · exact ⟨_, rfl⟩
  · exact ⟨_, rfl⟩

theorem reaches_prepareDues : ∃ e, s.prepareDues = s.withEngine e := by
  simp only [State.prepareDues]
  split
  · exact ⟨_, rfl⟩
  · exact ⟨_, rfl⟩

/-- A commit reaches the slot table (R27). -/
theorem reaches_commit (x : SlotNo) (c : SlotConfig) : ∃ v, (s.commit x c).1 = s.withSlots v := by
  unfold State.commit
  split
  · exact ⟨_, rfl⟩
  · exact ⟨_, rfl⟩
  · exact ⟨s.slots, rfl⟩
  · exact ⟨s.slots, rfl⟩

/-- A write at RECORD PORT reaches the record port, and the slot table where it commits (R37 to R39). -/
theorem reaches_recordWrite (b : Byte) : ∃ v p, s.recordWrite b = (s.withSlots v).withRecord p := by
  unfold State.recordWrite State.completeImage
  split
  · exact ⟨s.slots, _, rfl⟩
  · simp only
    split
    · obtain ⟨v, hv⟩ := reaches_commit s s.record.writeCursor ‹_›
      rw [hv]
      exact ⟨v, _, rfl⟩
    · exact ⟨s.slots, _, rfl⟩

/-- The delivery of an entry removes the head of the queue at most (R123, R138). -/
theorem reaches_deliver : ∃ e, s.deliver = s.withEngine e ∨
    s.deliver = (s.withReports { s.reports with entries := s.reports.entries.tail }).withEngine e := by
  unfold State.deliver
  split
  · exact ⟨_, .inr rfl⟩
  · exact ⟨_, .inl rfl⟩

/-- The state in which the byte read next has been taken: its entry delivered where the byte is the entry's last (R138). -/
def byteTaken : State := if (s.engine.bytePos + 1) % s.engine.entryBytes = 0 then s.deliver else s

/-- A read of TRANSFER PORT in a read-direction block ends the block with its last byte (R138). -/
theorem transferRead_reading (h : s.engine.reading = true) : s.transferRead =
    (byteTaken s).withEngine
      (if s.engine.entryBytes * s.engine.blockLength ≤ s.engine.bytePos + 1 then (byteTaken s).engine.endBlock
        else { (byteTaken s).engine with bytePos := s.engine.bytePos + 1 }) := by
  rw [State.transferRead, if_pos h, apply_ite (State.withEngine _)]
  rfl

theorem transferRead_outside (h : s.engine.reading = false) : s.transferRead = s := by
  rw [State.transferRead, if_neg (by rw [h]; exact Bool.false_ne_true)]

theorem reaches_byteTaken : ∃ e, byteTaken s = s.withEngine e ∨
    byteTaken s = (s.withReports { s.reports with entries := s.reports.entries.tail }).withEngine e := by
  unfold byteTaken
  split
  · exact reaches_deliver s
  · exact ⟨s.engine, .inl rfl⟩

theorem reaches_transferRead : ∃ e, s.transferRead = s.withEngine e ∨
    s.transferRead = (s.withReports { s.reports with entries := s.reports.entries.tail }).withEngine e := by
  cases hr : s.engine.reading with
  | false => exact ⟨s.engine, .inl (transferRead_outside s hr)⟩
  | true =>
    rw [transferRead_reading s hr]
    obtain ⟨e, he | he⟩ := reaches_byteTaken s
    · rw [he]
      exact ⟨_, .inl rfl⟩
    · rw [he]
      exact ⟨_, .inr rfl⟩

/-- What an advance does beside the counter and the CNT level is scheduling (R61). -/
theorem advance_frame (tb : Timebase) (fresh : Bool) :
    ∃ u, SchedStep (s.withTimebase u) (s.advance tb fresh) := by
  unfold State.advance
  split
  · exact ⟨s.timebase, .refl s⟩
  · have h := (s.countUp tb).fireRun_schedStep ((s.countUp tb).dueNow tb) fresh
    cases tb <;> exact ⟨_, h⟩

end

/-! ## The effects of a row -/

/-- From `s` to `t` one event of the device has been taken. -/
inductive Event (s : State) : State → Prop where
  | none : Event s s
  | baseTick : Event s s.restartTick.lineTick.trigTick
  | lineTick : Event s s.lineTick
  | trigTick : Event s s.trigTick
  | advance (tb : Timebase) (fresh : Bool) : Event s (s.advance tb fresh)
  | cntLevel (v : Level) : Event s (s.withTimebase { s.timebase with cntLevel := v })
  | cntRise : Event s s.cntRise
  | channel (n : TrigNo) (c : Channel) : Event s (s.setTrig n c)
  | edge (n : TrigNo) (c : Channel) : Event s ((s.setTrig n c).takeEdge n)
  | stopSampled (k : Nat) : Event s (s.withStop { s.stop with qualCount := k })
  | stopAsserted (h : s.stop.level = .high) : Event s (s.giveUp.withStop { level := .low, qualCount := 0, stopl := true })
  | stopReleased : Event s s.releaseStop
  | held : Event s s.holdReset
  | powerOn (pins : PinLevels) : Event s (s.releaseReset pins)
  | recordWrite (b : Byte) : Event s (s.recordWrite b)
  | recordRead (b : Byte) : Event s (s.recordRead.returning b)
  | writeCursor (b : Byte) : Event s (s.setWriteCursor b)
  | readCursor (b : Byte) : Event s (s.setReadCursor b)
  | transferRead (b : Byte) : Event s (s.transferRead.returning b)
  | transferWrite (b : Byte) : Event s (s.transferWrite b)
  | statusRead (b : Byte) : Event s (s.statusCleared.returning b)
  | params (p : Params) : Event s (s.withParams p)
  | command (b : Byte) : Event s (s.writeCommand b)
  | abort : Event s s.abortCommand
  | softReset : Event s s.softReset
  | intEnable (b : Byte) : Event s (s.setIntEnable b)
  | watermark (b : Byte) : Event s (s.setWatermark b)
  | completion {t : State} (err : ErrorCode) (h : Effect s t) : Event s (t.finish err)
  | prepareReports (hp : s.engine.pendingEvent = .preparation) (hc : s.engine.command = some .readReports) :
      Event s s.prepareReports
  | prepareDues (hp : s.engine.pendingEvent = .preparation) (hc : s.engine.command ≠ some .readReports) :
      Event s s.prepareDues
  | opening (hp : s.engine.pendingEvent = .opening) : Event s s.openSlots
  | processing (hp : s.engine.pendingEvent = .processing) : Event s s.processBlock

section

variable (s : State)

theorem event_cntSample (v : Level) : Event s (s.cntSample v) := by
  simp only [State.cntSample]
  split
  · next h => obtain ⟨-, rfl⟩ := h; exact .cntRise
  · exact .cntLevel v

theorem event_trigSample (n : TrigNo) (v : Level) : Event s (s.trigSample n v) := by
  simp only [State.trigSample]
  split
  · simp only [State.qualifiedEdge]
    split
    · rw [State.setTrig_twice]; exact .channel n _
    · rw [State.setTrig_twice]; exact .edge n _
  · exact .channel n _

theorem event_assertStop : Event s s.assertStop := by
  unfold State.assertStop
  split
  · exact .stopSampled 0
  · next h => exact .stopAsserted ((stopAsserted_eq_false_iff s).1 (Bool.eq_false_iff.2 h))

theorem event_stopSampled (v : Level) : Event s (s.stopSampled v) := by
  unfold State.stopSampled
  split
  · exact .stopSampled 0
  · split
    · exact .stopSampled _
    · cases v
      · exact event_assertStop s
      · exact .stopReleased

theorem event_writeControl (b : Byte) : Event s (s.writeControl b) := by
  unfold State.writeControl
  split
  · exact .softReset
  · split
    · exact .abort
    · exact .none

/-- A bus write reaches the block that owns the register (Table 12-1). -/
theorem event_busWrite (a : Addr) (b : Byte) : Event s (s.busWrite a b) := by
  unfold State.busWrite
  split
  · exact .recordWrite b
  · exact .writeCursor b
  · exact .readCursor b
  · exact .transferWrite b
  · exact .params _
  · exact .params _
  · exact .params _
  · exact .params _
  · exact .params _
  · exact .params _
  · exact .params _
  · exact .command b
  · exact event_writeControl s b
  · exact .intEnable b
  · exact .watermark b
  · exact .none

theorem event_completionEvent : Event s s.completionEvent := by
  unfold State.completionEvent
  split
  · exact .completion _ (effect_complete s)
  · exact .none

theorem event_preparationEvent : Event s s.preparationEvent := by
  unfold State.preparationEvent
  split
  · next hp =>
    split
    · next hc => exact .prepareReports hp hc
    · next hc => exact .prepareDues hp hc
  · exact .none

theorem event_openingEvent : Event s s.openingEvent := by
  unfold State.openingEvent
  split
  · next hp => exact .opening hp
  · exact .none

theorem event_processingEvent : Event s s.processingEvent := by
  unfold State.processingEvent
  split
  · next hp => exact .processing hp
  · exact .none

variable {s} {t : State}

/-- What a row does while RESET# is released, or nothing while it is held (R182). -/
theorem event_unlessHeld {u : State} (hu : Event s u)
    (h : (.next (if s.resetHeld then s else u) : Host.Outcome State Fault Refusal) = .next t) : Event s t := by
  cases h
  split
  · exact .none
  · exact hu

/-- Every row is one event of the device. -/
theorem event_exec {i : Instr} (h : exec i s = .next t) : Event s t := by
  cases i with
  | baseTick => exact event_unlessHeld .baseTick h
  | advance source =>
    cases source
    · exact event_unlessHeld (.advance .tb0 _) h
    · exact event_unlessHeld .cntRise h
  | pulseEnd => exact event_unlessHeld .lineTick h
  | lockoutWindowClose => exact event_unlessHeld .trigTick h
  | triggerEdge n v => exact event_unlessHeld (event_trigSample s n v) h
  | stopAssertion => exact event_unlessHeld (event_assertStop s) h
  | stopRelease => exact event_unlessHeld .stopReleased h
  | resetAssertion => cases h; exact .held
  | resetRelease pins => cases h; exact .powerOn pins
  | recordPortWrite b => exact event_unlessHeld (.recordWrite b) h
  | recordPortRead => exact event_unlessHeld (.recordRead _) h
  | writeCursor b => exact event_unlessHeld (.writeCursor b) h
  | readCursor b => exact event_unlessHeld (.readCursor b) h
  | transferPortRead => exact event_unlessHeld (.transferRead _) h
  | transferPortWrite b => exact event_unlessHeld (.transferWrite b) h
  | statusRead => exact event_unlessHeld (.statusRead _) h
  | abort => exact event_unlessHeld .abort h
  | softReset => exact event_unlessHeld .softReset h
  | intEnable b => exact event_unlessHeld (.intEnable b) h
  | watermark b => exact event_unlessHeld (.watermark b) h
  | registerWrite a b => exact event_unlessHeld (event_busWrite s a b) h
  | completion => exact event_unlessHeld (event_completionEvent s) h
  | blockPreparation => exact event_unlessHeld (event_preparationEvent s) h
  | blockOpening => exact event_unlessHeld (event_openingEvent s) h
  | blockProcessing => exact event_unlessHeld (event_processingEvent s) h
  | cntEdge v => exact event_unlessHeld (event_cntSample s v) h
  | stopSample v => exact event_unlessHeld (event_stopSampled s v) h
  | _ => exact event_unlessHeld (.command _) h

/-- A step is one event of the command at the front of the queue, or a CLK period, which moves only the base tick count, the
queue and the index of free values (R1). -/
theorem step_cases (h : step s = .next t) :
    (∃ rest, Event (s.withPending rest) t) ∨
      ∃ clk i rest, t = ((s.withTimebase { s.timebase with clkCount := clk }).withFreeIndex i).withPending rest := by
  unfold step at h
  split at h
  · exact .inl ⟨_, event_exec h⟩
  · cases h
    refine .inr ?_
    unfold State.idle
    split
    · exact ⟨s.timebase.clkCount, s.freeIndex, s.pending, rfl⟩
    · split
      · exact ⟨s.timebase.clkCount + 1, s.freeIndex, s.pending, rfl⟩
      · exact ⟨0, _, _, rfl⟩

end

end Sys2Proof.Machine
end

section
/-! PROOFS. The assertion of STOP# (R169 to R171), and the invariant of the schedule: the laws of slots, lists, lines and the
stop are kept by every operation of the scheduler, with the slots that are about to fire set apart, and so by every
step. -/

namespace Sys2Proof.Machine

open Sys2Proof.Claims

/-! ## The disarms of the stop (R66, R169) -/

theorem mem_stopOrder (r : ListRef) : r ∈ stopOrder := by
  have hwait : ∀ n : TrigNo, ListRef.wait n ∈ stopOrder := by decide
  cases r with
  | due tb => cases tb <;> decide
  | wait n => exact hwait n

theorem stopOrder_nodup : stopOrder.Nodup := by decide

/-- Every slot stands once and in one list. -/
abbrev Apart (s : State) : Prop :=
  (∀ r, (s.list r).Nodup) ∧ ∀ r q x, x ∈ s.list r → x ∈ s.list q → q = r

theorem apart_of_listsWf {s : State} (h : ListsWf s) : Apart s :=
  ⟨h.1, fun r q x hr hq => Option.some.inj (((h.2 x q).1 hq).symm.trans ((h.2 x r).1 hr))⟩

/-- The reports of a run of disarms read only the slots of the run and the counters. -/
theorem disarmReports_congr {s t : State} {xs : List SlotNo} (hslot : ∀ x ∈ xs, t.slot x = s.slot x)
    (hnow : ∀ tb, t.now tb = s.now tb) (kind : ReportKind) (aux : Aux) :
    disarmReports t xs kind aux = disarmReports s xs kind aux := by
  unfold disarmReports
  rw [List.filter_congr fun x hx => by rw [hslot x hx]]
  refine List.map_congr_left fun x hx => ?_
  simp only [disarmReport, reportOf, hslot x (List.mem_of_mem_filter hx), hnow]

theorem disarmReports_append (s : State) (xs ys : List SlotNo) (kind : ReportKind) (aux : Aux) :
    disarmReports s (xs ++ ys) kind aux = disarmReports s xs kind aux ++ disarmReports s ys kind aux := by
  simp only [disarmReports, List.filter_append, List.map_append]

section

variable (s : State)

/-- A run of disarms hands a STOPPED report to the queue for each slot whose report enable is set, in order (R169). -/
theorem reports_stopRun (r : ListRef) (xs : List SlotNo) (hx : xs.Nodup) :
    (xs.foldl (fun t x => t.stopSlot r x) s).reports =
      (disarmReports s xs .stopped .none).foldl ReportQueue.append s.reports := by
  induction xs generalizing s with
  | nil => rfl
  | cons x xs ih =>
    obtain ⟨hxs, hnodup⟩ := List.nodup_cons.1 hx
    have hrest := disarmReports_congr (s := s) (t := s.stopSlot r x) (xs := xs)
      (fun y hy => s.slot_stopSlot_ne r x fun e => hxs (e ▸ hy)) (s.stopSlot_schedStep r x).now .stopped .none
    rw [List.foldl_cons, ih _ hnodup, hrest, State.reports_stopSlot, ← List.singleton_append (l := xs),
      disarmReports_append, List.foldl_append]
    cases h : (s.slot x).config.reportEnable with
    | true => simp only [disarmReports, List.filter_singleton, h, cond_true, List.map_cons, List.map_nil, if_true]; rfl
    | false => simp [disarmReports, h]

/-- What the disarm of one list does. -/
theorem stopList_effect (r : ListRef) (h : Apart s) :
    (∀ x, (s.stopList r).slot x = if x ∈ s.list r then { s.slot x with run := .held } else s.slot x) ∧
    (∀ q, (s.stopList r).list q = if q = r then [] else s.list q) ∧ (∀ l, (s.stopList r).line l = s.line l) ∧
    (s.stopList r).reports = (disarmReports s (s.list r) .stopped .none).foldl ReportQueue.append s.reports := by
  obtain ⟨hslot, hlist, hother, hline⟩ := s.stopRun r (s.list r) (h.1 r)
  refine ⟨hslot, fun q => ?_, hline, reports_stopRun s r _ (h.1 r)⟩
  split
  · next hq =>
    subst hq
    exact hlist.trans (List.eq_nil_iff_forall_not_mem.2 fun x hx => by simp [(h.1 q).mem_sdiff_iff] at hx)
  · next hq => exact hother q hq

/-- What the disarm of a run of lists does: their slots are HELD, the lists are empty, no line is reached, and the reports
stand in the order of the lists. -/
theorem stopLists_effect (rs : List ListRef) (hrs : rs.Nodup) (h : Apart s) :
    (∀ x, (rs.foldl State.stopList s).slot x =
      if ∃ r ∈ rs, x ∈ s.list r then { s.slot x with run := .held } else s.slot x) ∧
    (∀ q, (rs.foldl State.stopList s).list q = if q ∈ rs then [] else s.list q) ∧
    (∀ l, (rs.foldl State.stopList s).line l = s.line l) ∧
    (rs.foldl State.stopList s).reports =
      (disarmReports s (rs.flatMap s.list) .stopped .none).foldl ReportQueue.append s.reports := by
  induction rs generalizing s with
  | nil => simp [disarmReports]
  | cons r rs ih =>
    obtain ⟨hr, hrs⟩ := List.nodup_cons.1 hrs
    obtain ⟨hslot, hlist, hline, hreports⟩ := stopList_effect s r h
    have hother : ∀ q ∈ rs, (s.stopList r).list q = s.list q := fun q hq => by
      rw [hlist, if_neg fun e : q = r => hr (e ▸ hq)]
    have hsub : ∀ q x, x ∈ (s.stopList r).list q → x ∈ s.list q := fun q x hx => by
      rw [hlist] at hx
      split at hx
      · cases hx
      · exact hx
    obtain ⟨ihslot, ihlist, ihline, ihreports⟩ := ih (s.stopList r) hrs
      ⟨fun q => by rw [hlist]; split; exacts [List.nodup_nil, h.1 q],
        fun q q' x hq hq' => h.2 q q' x (hsub q x hq) (hsub q' x hq')⟩
    refine ⟨fun x => ?_, fun q => ?_, fun l => (ihline l).trans (hline l), ?_⟩
    · have hex : (∃ q ∈ rs, x ∈ (s.stopList r).list q) ↔ ∃ q ∈ rs, x ∈ s.list q :=
        exists_congr fun q => and_congr_right fun hq => by rw [hother q hq]
      rw [List.foldl_cons, ihslot, hslot, if_congr hex rfl rfl]
      by_cases hx : x ∈ s.list r <;> simp [hx]
    · rw [List.foldl_cons, ihlist, hlist]
      by_cases hq : q = r <;> simp [hq]
    · have hflat : rs.flatMap (s.stopList r).list = rs.flatMap s.list := List.flatMap_congr hother
      have hkept : ∀ x ∈ rs.flatMap s.list, (s.stopList r).slot x = s.slot x := fun x hx => by
        obtain ⟨q, hq, hxq⟩ := List.mem_flatMap.1 hx
        rw [hslot, if_neg fun hxr => hr (h.2 q r x hxq hxr ▸ hq)]
      rw [List.foldl_cons, ihreports, hflat, disarmReports_congr hkept (s.stopList_schedStep r).now, hreports,
        List.flatMap_cons, disarmReports_append, List.foldl_append]

/-- The slots of the six lists are the ARMED and WAITING ones (R49). -/
theorem listed_iff (hlists : ListsWf s) (hslots : ∀ x, SlotWf (s.slot x)) (x : SlotNo) :
    (∃ r ∈ stopOrder, x ∈ s.list r) ↔ (s.slot x).run.state = .armed ∨ (s.slot x).run.state = .waiting := by
  constructor
  · rintro ⟨r, -, hr⟩
    exact armed_or_waiting_of_standsIn ((hlists.2 x r).1 hr)
  · intro hx
    cases hs : (s.slot x).standsIn with
    | none => rcases idle_of_standsIn (hslots x) hs with h | h <;> simp [h] at hx
    | some r => exact ⟨r, mem_stopOrder r, (hlists.2 x r).2 hs⟩

/-- The assertion empties the six lists, makes their slots HELD and puts every line at its safe level (R169, R170). -/
theorem giveUp_effect (hlists : ListsWf s) (hslots : ∀ x, SlotWf (s.slot x)) :
    (∀ x, s.giveUp.slot x =
      if (s.slot x).run.state = .armed ∨ (s.slot x).run.state = .waiting then { s.slot x with run := .held }
      else s.slot x) ∧
    (∀ r, s.giveUp.list r = []) ∧ (∀ l, s.giveUp.line l = (s.line l).stopped) ∧
    s.giveUp.reports =
      (disarmReports s (stopOrder.flatMap s.list) .stopped .none).foldl ReportQueue.append s.reports := by
  obtain ⟨hslot, hlist, hline, hreports⟩ := stopLists_effect s stopOrder stopOrder_nodup (apart_of_listsWf hlists)
  refine ⟨fun x => ?_, fun r => ?_, fun l => ?_, s.reports_giveUp.trans hreports⟩
  · rw [s.slot_giveUp, hslot]
    exact if_congr (listed_iff s hlists hslots x) rfl rfl
  · rw [s.list_giveUp, hlist, if_pos (mem_stopOrder r)]
  · rw [s.line_giveUp, hline]

end

/-! ## A drop for lateness (R58) -/

section

variable (s : State) (x : SlotNo) (due : Word)

/-- The arm attempt of slot `x` dropped for lateness, from the state before it. -/
abbrev droppedLate : State := (s.withClaim x).dropLate x due (s.line (s.slot x).config.line).owner

theorem slot_droppedLate (y : SlotNo) : (droppedLate s x due).slot y = s.slot y := by
  simp only [droppedLate, State.dropLate, State.slot_postIf]
  split
  · exact s.slot_withClaim x y
  · exact s.slot_withClaim x y

theorem list_droppedLate (r : ListRef) : (droppedLate s x due).list r = s.list r := by
  simp only [droppedLate, State.dropLate, State.list_postIf]
  split
  · exact s.list_withClaim x r
  · exact s.list_withClaim x r

/-- The claim undone leaves the owner as it was, and the forced flag clear (R92). -/
theorem onlyItsLine_droppedLate : OnlyItsLine s (droppedLate s x due) x fun l => { l with forced := false } := by
  intro m
  simp only [droppedLate, State.dropLate, State.line_postIf, s.slot_withClaim]
  by_cases ha : (s.slot x).config.action = .none
  · rw [if_pos ha, if_neg fun h => h.1 ha, s.line_withClaim, if_neg fun h => h.1 ha]
  · rw [if_neg ha, State.undoClaim, State.line_setLine_if]
    by_cases hm : m = (s.slot x).config.line
    · rw [if_pos hm, if_pos ⟨ha, hm⟩, hm, s.line_withClaim, if_pos ⟨ha, rfl⟩]
      rfl
    · rw [if_neg hm, if_neg fun h => hm h.2, s.line_withClaim, if_neg fun h => hm h.2]

theorem reports_droppedLate :
    (droppedLate s x due).reports = handed (s.slot x).config.reportEnable
      (reportOf s x .dropped due (s.now (s.slot x).config.timebase)) s.reports := by
  have hreport : ∀ t : State, (∀ y, t.slot y = s.slot y) → (∀ tb, t.now tb = s.now tb) →
      t.slotReport x .dropped due = reportOf s x .dropped due (s.now (s.slot x).config.timebase) := fun t hslot hnow => by
    simp only [State.slotReport, hslot, hnow]
    rfl
  simp only [droppedLate, State.dropLate, handed_eq, s.slot_withClaim]
  rw [hreport _ (s.slot_withClaim x) (s.now_withClaim x)]
  split
  · rw [s.reports_withClaim]
  · exact congrArg _ (s.reports_withClaim x)

end

/-! ## The bind of a slot at an edge (R105, R106) -/

section

variable (s : State) (n : TrigNo) (x : SlotNo) (rest : List SlotNo)

/-- The bound slot has left its wait list, BOUND is posted, and the slot is ARMED at the capture plus its offset. -/
def boundBy : State :=
  ((s.setList (.wait n) rest).postIf (s.slot x).config.reportEnable (s.boundReport x n)).setRun x
    ((s.slot x).run.boundRun (s.now (s.slot x).config.timebase + (s.slot x).config.offset))

/-- A bind goes on with the fire of the slot, or with its insertion (R106, R107). -/
theorem bind_eq : s.bind n x rest =
    if (s.slot x).config.offset = 0 then (boundBy s n x rest).fire x .fired false
    else (boundBy s n x rest).insertDue (s.slot x).config.timebase x := rfl

theorem boundBy_schedStep : SchedStep s (boundBy s n x rest) :=
  ((s.setList_schedStep _ _).trans (State.postIf_schedStep _ _ _)).trans (State.setRun_schedStep _ _ _)

theorem onlyItsRun_boundBy : OnlyItsRun s (boundBy s n x rest) x
    ((s.slot x).run.boundRun (s.now (s.slot x).config.timebase + (s.slot x).config.offset)) := fun y => by
  rw [boundBy, onlyItsRun_setRun _ x _ y, State.slot_postIf, State.slot_postIf]
  rfl

theorem list_boundBy : (boundBy s n x rest).list (.wait n) = rest := by
  rw [boundBy, State.list_setRun, State.list_postIf, State.list_setList]

theorem list_boundBy_ne {r : ListRef} (h : r ≠ .wait n) : (boundBy s n x rest).list r = s.list r := by
  rw [boundBy, State.list_setRun, State.list_postIf, s.list_setList_ne _ h]

theorem line_boundBy (l : LineNo) : (boundBy s n x rest).line l = s.line l := by
  rw [boundBy, State.line_setRun, State.line_postIf, State.line_setList]

theorem reports_boundBy : (boundBy s n x rest).reports =
    handed (s.slot x).config.reportEnable (boundReport s x n) s.reports := by
  rw [boundBy, State.setRun, State.setSlot, State.reports_withSlots, handed_eq]
  rfl

end

/-! ## The laws of the schedule -/

/-- The laws of slots, lists, lines and the stop, with the slots of `F` about to fire. -/
structure Scheduled (F : List SlotNo) (s : State) : Prop where
  standing : Standing F s
  armed : ∀ x ∈ F, (s.slot x).run.state = .armed
  lines : LineLaws s
  stop : StopWf s

theorem scheduled_nil_iff {s : State} : Scheduled [] s ↔ ScheduleWf s := by
  constructor
  · rintro ⟨hstanding, -, hlines, hstop⟩
    obtain ⟨hslots, hlists, horder⟩ := standing_nil_iff.1 hstanding
    obtain ⟨howner, hpulse⟩ := (lineLaws_iff s).1 hlines
    exact ⟨hslots, hlists, horder, howner, hpulse, hstop⟩
  · rintro ⟨hslots, hlists, horder, howner, hpulse, hstop⟩
    exact ⟨standing_nil_iff.2 ⟨hslots, hlists, horder⟩, by simp, (lineLaws_iff s).2 ⟨howner, hpulse⟩, hstop⟩

theorem holds_eq {s t : State} (h : ∀ y, t.slot y = s.slot y) (l : LineNo) : t.holds l = s.holds l :=
  funext fun y => holds_congr (h y) l

theorem onlyItsRun_same {s t : State} {x : SlotNo} (h : ∀ y, t.slot y = s.slot y) :
    OnlyItsRun s t x (s.slot x).run := onlyItsRun_of (h x) fun y _ => h y

theorem stopWf_of_high {s : State} (h : s.stop.level = .high) : StopWf s := fun ha => by
  simp [State.stopAsserted, h] at ha

section

variable (s : State) (v : StopMonitor)

theorem slot_withStop (x : SlotNo) : (s.withStop v).slot x = s.slot x := rfl
theorem list_withStop (r : ListRef) : (s.withStop v).list r = s.list r := rfl
theorem line_withStop (l : LineNo) : (s.withStop v).line l = s.line l := rfl

end

namespace Scheduled

variable {F : List SlotNo} {s t : State} {x : SlotNo}

/-- The laws read slots, lists, lines, counters and the stop monitor only. -/
theorem congr (h : Scheduled F s) (hslot : ∀ y, t.slot y = s.slot y) (hlist : ∀ r, t.list r = s.list r)
    (hline : ∀ l, t.line l = s.line l) (hnow : ∀ tb, t.now tb = s.now tb) (hstop : t.stop = s.stop) : Scheduled F t := by
  refine ⟨h.standing.congr hslot hlist hnow, fun y hy => by rw [hslot]; exact h.armed y hy,
    h.lines.congr hslot hline, ?_⟩
  simp only [StopWf, State.stopAsserted, hslot, hline, hstop]
  exact h.stop

/-- An ARMED or WAITING slot stands only while STOP# is released (R172). -/
theorem high (h : Scheduled F s) (hx : (s.slot x).run.state = .armed ∨ (s.slot x).run.state = .waiting) :
    s.stop.level = .high := by
  rw [← stopAsserted_eq_false_iff, Bool.eq_false_iff]
  intro ha
  obtain ⟨-, hidle, -⟩ := h.stop ha
  exact hx.elim (hidle x).1 (hidle x).2

/-- A state in which no slot is ARMED or WAITING, every list is empty and every line is given up. -/
theorem of_idle (hslot : ∀ y, SlotWf (s.slot y) ∧ Idle (s.slot y)) (hlist : ∀ r, s.list r = [])
    (hline : ∀ l, (s.line l).owner = none ∧ (s.line l).countdown = 0)
    (hstop : s.stopAsserted = true →
      s.stop.stopl = true ∧ ∀ l, (s.line l).forced = false ∧ (s.line l).level = (s.line l).safe) : Scheduled [] s := by
  refine ⟨⟨fun y => (hslot y).1, fun r => ?_, fun y r hy => ?_, fun y r hy => ?_, fun tb => ?_, fun tb y hy => ?_⟩,
    by simp, fun l => .of_unowned (fun y => holds_idle (hslot y).2 l) (hline l).1 (hline l).2, fun ha => ?_⟩
  · simp [hlist]
  · simp [hlist] at hy
  · simp [standsIn_idle (hslot y).2] at hy
  · simp [hlist]
  · simp [hlist] at hy
  · obtain ⟨hstopl, hsafe⟩ := hstop ha
    refine ⟨hstopl, fun y => ?_, fun l => ⟨(hline l).1, (hline l).2, hsafe l⟩⟩
    rcases (hslot y).2 with hy | hy <;> simp [hy]

/-! ### Arming -/

/-- A slot that passed the checks (Table 4-2) is claimed for, armed and inserted (R54, R55). -/
theorem armInto (h : Scheduled F s) (hstop : s.stop.level = .high) (hheld : (s.slot x).run.state = .held)
    (hfree : s.LineFree x) (due : Word)
    (hd : 1 ≤ distance (s.now (s.slot x).config.timebase) due ∧
      distance (s.now (s.slot x).config.timebase) due ≤ 2 ^ 31) : Scheduled F ((s.withClaim x).armInto x due) := by
  obtain ⟨hrun, -, -, hline, -⟩ := armedInto_armInto s x due
  have hstanding := h.standing.congr (s.slot_withClaim x) (s.list_withClaim x) (s.now_withClaim x)
  refine ⟨hstanding.armInto (.inl (by rwa [s.slot_withClaim])) due (by rwa [s.slot_withClaim, s.now_withClaim]),
    fun y hy => ?_, h.lines.claim hfree hrun hline (.inl rfl), stopWf_of_high ?_⟩
  · have harmed := h.armed y hy
    rw [hrun y, if_neg fun e => by rw [e, hheld] at harmed; cases harmed]
    exact harmed
  · rw [armInto_eq_update]
    exact hstop

/-- A slot that passed the checks is claimed for and about to fire within the attempt (R56, R57). -/
theorem readyToFire (h : Scheduled [] s) (hstop : s.stop.level = .high) (hheld : (s.slot x).run.state = .held)
    (hfree : s.LineFree x) (due : Word) :
    Scheduled [x] ((s.withClaim x).setRun x ((s.slot x).config.armedRun due)) := by
  have hrun : OnlyItsRun s ((s.withClaim x).setRun x ((s.slot x).config.armedRun due)) x
      (armedRun (s.slot x).config due) := fun y => by
    rw [onlyItsRun_setRun (s.withClaim x) x _ y, s.slot_withClaim, s.slot_withClaim]; rfl
  have hstanding := h.standing.congr (s.slot_withClaim x) (s.list_withClaim x) (s.now_withClaim x)
  have hidle : Idle ((s.withClaim x).slot x) := .inl (by rwa [s.slot_withClaim])
  refine ⟨(hstanding.cons x).setRun (hstanding.not_mem_of_idle hidle) ?_, fun y hy => ?_,
    h.lines.claim hfree hrun (onlyItsLine_withClaim s x) (.inl rfl), stopWf_of_high ?_⟩
  · rw [s.slot_withClaim]
    exact slotWf_armedRun (h.standing.slots x) due
  · rw [List.mem_singleton.1 hy, State.slot_setRun]
    rfl
  · rw [State.setRun, State.setSlot, State.stop_withSlots, State.withClaim]
    split <;> exact hstop

theorem passChecks {mode : ArmMode} (hp : s.passChecks mode x = .ok t) :
    s.stop.level = .high ∧ (s.slot x).run.state = .held ∧ (s.slot x).config.badOffset mode = false ∧ s.LineFree x := by
  rcases s.passChecks_cases x mode with ⟨-, h⟩ | ⟨-, -, h⟩ | ⟨-, -, -, h⟩ | ⟨-, -, -, -, h⟩ | ⟨h1, h2, h3, h4, -⟩
  · rw [h] at hp; cases hp
  · rw [h] at hp; cases hp
  · rw [h] at hp; cases hp
  · rw [h] at hp; cases hp
  · exact ⟨h1, h2, h3, h4⟩

/-! ### The fire -/

theorem post (h : Scheduled F s) (r : Report) : Scheduled F (s.post r) :=
  h.congr (fun _ => rfl) (fun _ => rfl) (fun _ => rfl) (fun tb => s.now_post tb r) rfl

/-- Step 4 of a fire (R65). -/
theorem chainFrom (h : Scheduled F s) (y : SlotNo) (fault : ChainCause → Report) : Scheduled F (s.chainFrom y fault) := by
  unfold State.chainFrom
  rcases s.chainAttempt_cases y with ⟨o, -, hchain⟩ | ⟨hp, hchain⟩
  · rw [hchain]
    cases o
    case stopped => exact h
    all_goals exact h.post _
  · obtain ⟨hstop, hheld, hoffset, hfree⟩ := passChecks hp
    rw [hchain]
    refine h.armInto hstop hheld hfree _ ?_
    rw [Bool.eq_false_iff, ne_eq, badOffset_chain_iff, BadChainOffset, not_or, not_or, not_le] at hoffset
    obtain ⟨hzero, hlarge, -⟩ := hoffset
    rw [distance_add]
    refine ⟨?_, hlarge.le⟩
    bv_omega

/-- The fire of the next slot that is about to fire (R62 to R65). -/
theorem fire (h : Scheduled (x :: F) s) (hx : x ∉ F) (kind : ReportKind) (fresh : Bool) :
    Scheduled F (s.fire x kind fresh) := by
  have harmed := h.armed x List.mem_cons_self
  have hown : Scheduled F (s.fireOwn x kind fresh) := by
    refine ⟨h.standing.fireOwn harmed kind fresh, fun y hy => ?_,
      h.lines.fireOwn (h.standing.slots x) harmed kind fresh, stopWf_of_high ?_⟩
    · rw [s.slot_fireOwn_ne x kind fresh fun e => hx (e ▸ hy)]
      exact h.armed y (List.mem_cons_of_mem x hy)
    · rw [(s.fireOwn_schedStep x kind fresh).stop]
      exact h.high (.inl harmed)
  simp only [State.fire]
  split
  · exact hown.chainFrom _ _
  · exact hown

/-- The fires of a run, each whole before the next (R61). -/
theorem fireRun (h : Scheduled F s) (hF : F.Nodup) (fresh : Bool) : Scheduled [] (s.fireRun F fresh) := by
  induction F generalizing s with
  | nil => exact h
  | cons x xs ih =>
    obtain ⟨hx, hxs⟩ := List.nodup_cons.1 hF
    exact ih (h.fire hx .fired fresh) hxs

/-! ### The attempts -/

/-- A drop for lateness clears the forced flag of the slot's line, and nothing else of slots, lists and lines (R58, R92). -/
theorem dropLate (h : Scheduled F s) (due : Word) :
    Scheduled F ((s.withClaim x).dropLate x due (s.line (s.slot x).config.line).owner) := by
  have hstep := (s.withClaim x).dropLate_schedStep x due (s.line (s.slot x).config.line).owner
  have hslot := slot_droppedLate s x due
  have hline := onlyItsLine_droppedLate s x due
  have hstop : (droppedLate s x due).stop = s.stop := by
    rw [hstep.stop, State.withClaim]
    split <;> rfl
  refine ⟨h.standing.congr hslot (list_droppedLate s x due) fun tb => ?_, fun y hy => ?_,
    h.lines.update (onlyItsRun_same hslot) hline fun _ => ?_, fun ha => ?_⟩
  · rw [hstep.now, s.now_withClaim]
  · rw [hslot]
    exact h.armed y hy
  · rw [holds_eq hslot]
    exact (h.lines _).unforced
  · rw [State.stopAsserted, hstop] at ha
    obtain ⟨hstopl, hidle, hlines⟩ := h.stop ha
    refine ⟨by rwa [hstop], fun y => by rw [hslot]; exact hidle y, fun l => ?_⟩
    rw [hline l]
    split
    · exact ⟨(hlines l).1, (hlines l).2.1, rfl, (hlines l).2.2.2⟩
    · exact hlines l

/-- The arm attempt, whatever it comes to (R53 to R58). -/
theorem armAttempt (h : Scheduled [] s) (mode : ArmMode) (x : SlotNo) :
    Scheduled [] (s.armAttempt mode x).state := by
  rcases s.armAttempt_cases mode x with ⟨o, -, ha⟩ | ⟨hp, ⟨hr, ha⟩ | ⟨-, -, ha⟩ | ⟨-, -, -, ha⟩⟩
  · rw [ha]
    exact h
  · obtain ⟨hstop, hheld, -, hfree⟩ := passChecks hp
    rw [ha]
    exact h.armInto hstop hheld hfree _ ((not_reached_iff _ _).1 hr)
  · obtain ⟨hstop, hheld, -, hfree⟩ := passChecks hp
    rw [ha]
    exact (h.readyToFire hstop hheld hfree _).fire (by simp) _ _
  · rw [ha]
    exact h.dropLate _

/-- Wait arming (R59). -/
theorem waitArm (h : Scheduled [] s) (x : SlotNo) (n : TrigNo) : Scheduled [] (s.waitArm x n).state := by
  rcases s.waitArm_cases x n with ⟨o, -, ha⟩ | ⟨hp, ha⟩
  · rw [ha]
    exact h
  obtain ⟨hstop, hheld, hoffset, hfree⟩ := passChecks hp
  have hrun : OnlyItsRun s ((s.withClaim x).setRun x ((s.slot x).config.waitingRun n)) x
      ((s.slot x).config.waitingRun n) := fun y => by
    rw [onlyItsRun_setRun (s.withClaim x) x _ y, s.slot_withClaim, s.slot_withClaim]
  have hstanding := h.standing.congr (s.slot_withClaim x) (s.list_withClaim x) (s.now_withClaim x)
  have hout := hstanding.not_mem_of_idle (x := x) (.inl (by rwa [s.slot_withClaim]))
  have hsmall : (s.slot x).config.offset.toNat < 2 ^ 31 := by
    rw [SlotConfig.badOffset, Bool.or_eq_false_iff] at hoffset
    simpa using hoffset.1
  have hwaiting := (hstanding.cons x).setRun hout (r := (s.slot x).config.waitingRun n)
    (by rw [s.slot_withClaim]; exact slotWf_waitingRun (h.standing.slots x) n hsmall)
  have hlist := hwaiting.append (n := n) hout (by rw [hrun x, if_pos rfl]; rfl)
  rw [State.list_setRun, s.list_withClaim] at hlist
  rw [ha]
  refine ⟨hlist, by simp, h.lines.claim (r := (s.slot x).config.waitingRun n) hfree hrun (onlyItsLine_withClaim s x)
    (.inr rfl), stopWf_of_high ?_⟩
  show (s.withClaim x).stop.level = .high
  rw [State.withClaim]
  split <;> exact hstop

/-! ### Disarms -/

theorem cancelSlot (h : Scheduled F s) (hx : x ∉ F) {r : ListRef} (hr : (s.slot x).standsIn = some r) (cut : Bool)
    (aux : Aux) : Scheduled F (s.cancelSlot r x cut aux) := by
  have hstate := armed_or_waiting_of_standsIn hr
  refine ⟨h.standing.cancelSlot hr cut aux, fun y hy => ?_, h.lines.cancelSlot hstate r cut aux, stopWf_of_high ?_⟩
  · rw [s.slot_cancelSlot_ne r x cut aux fun e => hx (e ▸ hy)]
    exact h.armed y hy
  · rw [(s.cancelSlot_schedStep r x cut aux).stop]
    exact h.high hstate

theorem cancel (h : Scheduled [] s) (x : SlotNo) (cut : Bool) : Scheduled [] (s.cancel x cut).state := by
  unfold State.cancel
  split
  · next hr => exact h.cancelSlot (by simp) hr cut .none
  · exact h

/-- FLUSH TRIGGER disarms the slots of a wait list, head first (R111). -/
theorem flush (h : Scheduled [] s) (n : TrigNo) : Scheduled [] (s.flush n) := by
  have hrun : ∀ (xs : List SlotNo) (s : State), Scheduled [] s → xs.Nodup →
      (∀ x ∈ xs, (s.slot x).standsIn = some (.wait n)) →
      Scheduled [] (xs.foldl (fun t x => t.cancelSlot (.wait n) x false (.trigger n)) s) := by
    intro xs
    induction xs with
    | nil => exact fun s h _ _ => h
    | cons x xs ih =>
      intro s h hnodup hxs
      obtain ⟨hx, hnodup⟩ := List.nodup_cons.1 hnodup
      refine ih _ (h.cancelSlot (by simp) (hxs x List.mem_cons_self) false _) hnodup fun y hy => ?_
      rw [s.slot_cancelSlot_ne _ x _ _ fun e => hx (e ▸ hy)]
      exact hxs y (List.mem_cons_of_mem x hy)
  exact hrun _ s h (h.standing.nodup _) fun x => h.standing.stands x _

/-! ### Trigger edges (R105 to R107) -/

theorem bind (h : Scheduled [] s) {n : TrigNo} {rest : List SlotNo} (hl : s.list (.wait n) = x :: rest) :
    Scheduled [] (s.bind n x rest) := by
  have hx := h.standing.stands x (.wait n) (by rw [hl]; exact List.mem_cons_self)
  obtain ⟨hwaiting, -⟩ := state_of_standsIn_wait hx
  have hout := h.standing.not_mem_removeFrom hx
  have hrun := onlyItsRun_boundBy s n x rest
  have hstop : (boundBy s n x rest).stop.level = .high := by
    rw [(boundBy_schedStep s n x rest).stop]
    exact h.high (.inr hwaiting)
  have hstanding : Standing [x] (boundBy s n x rest) := by
    have hrest : s.setList (.wait n) rest = s.removeFrom (.wait n) x := by
      rw [State.removeFrom, hl, List.erase_cons_head]
    rw [boundBy, hrest]
    refine Standing.setRun (((h.standing.cons x).removeFrom (.wait n)).congr (State.slot_postIf _ _ _)
      (State.list_postIf _ _ _) fun tb => State.now_postIf _ tb _ _) (fun r => ?_) ?_
    · rw [State.list_postIf]
      exact hout r
    · rw [State.slot_postIf, State.slot_removeFrom]
      exact slotWf_boundRun (h.standing.slots x) hwaiting _
  have hlines : LineLaws (boundBy s n x rest) := fun l => by
    rw [line_boundBy, LineLaws.holds_rerun hrun (.inr hwaiting) (.inl rfl)]
    exact h.lines l
  have hslot : (boundBy s n x rest).slot x = _ := (hrun x).trans (if_pos rfl)
  rw [bind_eq]
  split
  · refine fire ⟨hstanding, fun y hy => ?_, hlines, stopWf_of_high hstop⟩ (by simp) _ _
    rw [List.mem_singleton.1 hy, hslot]
    rfl
  · next ho =>
    have hmem : ∀ r, x ∉ (boundBy s n x rest).list r := fun r => by
      by_cases hr : r = .wait n
      · rw [hr, list_boundBy]
        have := h.standing.nodup (.wait n)
        rw [hl] at this
        exact (List.nodup_cons.1 this).1
      · rw [list_boundBy_ne s n x rest hr]
        exact h.standing.not_mem_of_ne hx hr
    have hsmall := (slotWf_waiting (h.standing.slots x) hwaiting).1
    refine ⟨hstanding.insertDue hmem ?_ ?_, by simp, hlines.congr (State.slot_insertDue _ _ _)
      (State.line_insertDue _ _ _), stopWf_of_high hstop⟩
    · rw [hslot]
      rfl
    · rw [State.distanceOn, hslot, (boundBy_schedStep s n x rest).now]
      simp only [RunPart.boundRun, distance_add]
      refine ⟨?_, hsmall.le⟩
      bv_omega

theorem takeEdge (h : Scheduled [] s) (n : TrigNo) : Scheduled [] (s.takeEdge n) := by
  unfold State.takeEdge
  split
  · next hl => exact h.bind hl
  · exact h.congr (State.slot_postIf _ _ _) (State.list_postIf _ _ _) (State.line_postIf _ _ _)
      (fun tb => State.now_postIf _ tb _ _) (State.postIf_schedStep _ _ _).stop

/-! ### Advances (R4, R61) -/

theorem setTrig (h : Scheduled F s) (n : TrigNo) (c : Channel) : Scheduled F (s.setTrig n c) :=
  h.congr (fun _ => rfl) (fun _ => rfl) (fun _ => rfl) (fun tb => s.now_setTrig tb n c) rfl

/-- Where a timebase counts, the entries that it reaches are about to fire, and every other entry is one nearer. -/
theorem countUp (h : Scheduled [] s) (tb : Timebase) : Scheduled ((s.countUp tb).dueNow tb) (s.countUp tb) := by
  have hslot : ∀ y, (s.countUp tb).slot y = s.slot y := s.slot_setCounter tb _
  have hlist : ∀ r, (s.countUp tb).list r = s.list r := s.list_setCounter tb _
  have hline : ∀ l, (s.countUp tb).line l = s.line l := s.line_setCounter tb _
  have hnow : (s.countUp tb).now tb = s.now tb + 1 := by rw [State.countUp, now_setCounter]
  have hfar : ∀ y ∈ s.list (.due tb), (s.countUp tb).distanceOn tb y = s.distanceOn tb y - 1 := fun y hy => by
    rw [State.distanceOn, hslot, hnow]
    exact distance_advance (h.standing.ahead tb y hy (by simp)).1
  have hother : ∀ tb', tb' ≠ tb → ∀ y, (s.countUp tb).distanceOn tb' y = s.distanceOn tb' y := fun tb' htb y => by
    rw [State.distanceOn, State.distanceOn, hslot, State.now, State.now, State.countUp,
      State.counterOf_setCounter_ne _ _ htb]
  have hdue : ∀ y ∈ (s.countUp tb).dueNow tb, y ∈ s.list (.due tb) := fun y hy => by
    rw [← hlist]
    exact List.mem_of_mem_filter hy
  refine ⟨⟨fun y => ?_, fun r => ?_, fun y r hy => ?_, fun y r hy _ => ?_, fun tb' => ?_, fun tb' y hy hyF => ?_⟩,
    fun y hy => ?_, h.lines.congr hslot hline, ?_⟩
  · rw [hslot]
    exact h.standing.slots y
  · rw [hlist]
    exact h.standing.nodup r
  · rw [hslot]
    exact h.standing.stands y r (by rwa [hlist] at hy)
  · rw [hlist]
    exact h.standing.listed y r (by rwa [hslot] at hy) (by simp)
  · rw [hlist]
    refine (h.standing.sorted tb').imp_of_mem fun {a b} ha hb hab => ?_
    by_cases htb : tb' = tb
    · subst htb
      rw [hfar a ha, hfar b hb]
      omega
    · rwa [hother tb' htb, hother tb' htb]
  · have hmem := hy
    rw [hlist] at hmem
    have hold := h.standing.ahead tb' y hmem (by simp)
    by_cases htb : tb' = tb
    · subst htb
      have hzero : (s.countUp tb').distanceOn tb' y ≠ 0 := fun hz => by
        refine hyF (List.mem_filter.2 ⟨hy, ?_⟩)
        rw [State.distanceOn, distance_eq_zero] at hz
        exact decide_eq_true hz
      rw [hfar y hmem] at hzero ⊢
      omega
    · rwa [hother tb' htb]
  · rw [hslot]
    exact (state_of_standsIn_due (h.standing.stands y _ (hdue y hy))).1
  · have hstop : (s.countUp tb).stop = s.stop := by cases tb <;> rfl
    simp only [StopWf, State.stopAsserted, hstop, hslot, hline]
    exact h.stop

theorem advance (h : Scheduled [] s) (tb : Timebase) (fresh : Bool) : Scheduled [] (s.advance tb fresh) := by
  unfold State.advance
  split
  · exact h
  · exact (h.countUp tb).fireRun (((h.countUp tb).standing.nodup _).filter _) fresh

/-! ### The other units -/

/-- A slot that is neither ARMED nor WAITING takes another such record. -/
theorem setSlot_idle (h : Scheduled [] s) (hx : Idle (s.slot x)) {v : Slot} (hv : SlotWf v) (hi : Idle v) :
    Scheduled [] (s.setSlot x v) := by
  refine ⟨h.standing.setSlot_idle hx hv hi, by simp, h.lines.setSlot_idle hx hi, fun ha => ?_⟩
  obtain ⟨hstopl, hidle, hlines⟩ := h.stop ha
  refine ⟨hstopl, fun y => ?_, hlines⟩
  rw [s.slot_setSlot_if]
  split
  · rcases hi with hi | hi <;> simp [hi]
  · exact hidle y

/-- An unowned line takes another record without owner and with the same countdown, at its safe level while STOP# is
asserted. -/
theorem setLine_unowned (h : Scheduled [] s) {l : LineNo} {v : Line} (ho : (s.line l).owner = none)
    (hv : v.owner = none) (hc : v.countdown = (s.line l).countdown)
    (hsafe : s.stopAsserted = true → v.forced = false ∧ v.level = v.safe) : Scheduled [] (s.setLine l v) := by
  refine ⟨h.standing.congr (s.slot_setLine l v) (s.list_setLine l v) fun tb => s.now_setLine tb l v, by simp,
    fun m => ?_, fun ha => ?_⟩
  · rw [s.line_setLine_if]
    split
    · next hm => exact hm ▸ (h.lines m).of_no_owner (hm ▸ ho) hv (hm ▸ hc)
    · exact h.lines m
  · obtain ⟨hstopl, hidle, hlines⟩ := h.stop ha
    refine ⟨hstopl, hidle, fun m => ?_⟩
    rw [s.line_setLine_if]
    split
    · exact ⟨hv, hc.trans (hlines l).2.1, hsafe ha⟩
    · exact hlines m

theorem lineTick (h : Scheduled [] s) : Scheduled [] s.lineTick := by
  refine ⟨h.standing.congr (fun _ => rfl) (fun _ => rfl) fun tb => s.lineTick_schedStep.now tb, by simp,
    h.lines.lineTick, fun ha => ?_⟩
  obtain ⟨hstopl, hidle, hlines⟩ := h.stop ha
  refine ⟨hstopl, hidle, fun l => ?_⟩
  obtain ⟨ho, hc, hf, hsafe⟩ := hlines l
  rw [State.line_lineTick, Line.tick_idle _ hc]
  exact ⟨ho, hc, hf, hsafe⟩

/-- The assertion of STOP# (R169 to R171). -/
theorem assertStop (h : Scheduled [] s) :
    Scheduled [] (s.giveUp.withStop { level := .low, qualCount := 0, stopl := true }) := by
  obtain ⟨hslots, hlists, -⟩ := standing_nil_iff.1 h.standing
  obtain ⟨hslot, hlist, hline, -⟩ := giveUp_effect s hlists hslots
  refine of_idle (fun y => ?_) (fun r => ?_) (fun l => ?_) fun _ => ⟨rfl, fun l => ?_⟩
  · rw [slot_withStop, hslot]
    split
    · exact ⟨slotWf_held (hslots y), .inl rfl⟩
    · next hy =>
      refine ⟨hslots y, ?_⟩
      cases hs : (s.slot y).run.state <;> simp [hs, Idle] at hy ⊢
  · rw [list_withStop, hlist]
  · rw [line_withStop, hline]
    exact ⟨rfl, rfl⟩
  · rw [line_withStop, hline]
    exact ⟨rfl, Line.level_stopped _⟩

theorem softReset (h : Scheduled [] s) : Scheduled [] s.softReset := by
  have hstop : s.softReset.stop = s.stop := by simp [State.softReset, State.softResetSlots]
  refine of_idle (fun y => ?_) s.list_softReset (fun l => ?_) fun ha => ?_
  · have hw := h.standing.slots y
    rw [State.slot_softReset]
    cases hs : (s.slot y).run.state <;> simp only [Slot.softReset, hs]
    · exact ⟨hw, .inr hs⟩
    · exact ⟨hw, .inl hs⟩
    · exact ⟨slotWf_held hw, .inl rfl⟩
    · exact ⟨slotWf_held hw, .inl rfl⟩
  · rw [State.line_softReset]
    exact ⟨rfl, rfl⟩
  · rw [State.stopAsserted, hstop] at ha
    rw [hstop]
    refine ⟨(h.stop ha).1, fun l => ?_⟩
    rw [State.line_softReset]
    exact ⟨rfl, Line.level_softReset _⟩

/-- The release of RESET# (R182). -/
theorem powerOn (s : State) (pins : PinLevels) : Scheduled [] (s.releaseReset pins) := by
  have hslot : ∀ y, (s.releaseReset pins).slot y = .free := fun y => Vector.getElem_replicate _
  have hline : ∀ l, (s.releaseReset pins).line l = .powerOn := fun l => Vector.getElem_replicate _
  refine of_idle (fun y => ?_) (fun r => ?_) (fun l => ?_) fun ha => ⟨ha, fun l => ?_⟩
  · rw [hslot]
    exact ⟨⟨by decide, by decide, rfl⟩, .inr rfl⟩
  · cases r with
    | due tb => cases tb <;> rfl
    | wait n => exact Vector.getElem_replicate _
  · rw [hline]
    exact ⟨rfl, rfl⟩
  · rw [hline]
    exact ⟨rfl, rfl⟩

end Scheduled

end Sys2Proof.Machine
end

section
/-! PROOFS. The laws of the schedule under every event, and the statement: every step keeps them. -/

namespace Sys2Proof.Machine

open Sys2Proof.Claims

/-- An image that passes the format checks spells a configuration that a commit can store (R38). -/
theorem formatOk_of_imageConfig {img : List Byte} {c : SlotConfig} (h : imageConfig img = some c) : FormatOk c := by
  simp only [imageConfig] at h
  split at h
  · split at h
    · next hok =>
      cases h
      exact ⟨hok.1, fun ha hw => hok.2 ⟨ha, hw⟩⟩
    · cases h
  · cases h

namespace Scheduled

variable {s t : State}

/-- The laws read nothing of the other blocks. -/
theorem frame (h : Scheduled [] s) (hslots : t.slots = s.slots) (hsched : t.sched = s.sched) (hlines : t.lines = s.lines)
    (hnow : ∀ tb, t.now tb = s.now tb) (hstop : t.stop = s.stop) : Scheduled [] t :=
  h.congr (State.slot_congr hslots) (fun r => by rw [State.list, hsched]; rfl) (State.line_congr hlines) hnow hstop

theorem withEngine (h : Scheduled [] s) (e : Engine) : Scheduled [] (s.withEngine e) :=
  h.frame rfl rfl rfl (fun tb => by cases tb <;> rfl) rfl

theorem withReports (h : Scheduled [] s) (q : ReportQueue) : Scheduled [] (s.withReports q) :=
  h.frame rfl rfl rfl (fun tb => by cases tb <;> rfl) rfl

theorem withRecord (h : Scheduled [] s) (p : RecordPort) : Scheduled [] (s.withRecord p) :=
  h.frame rfl rfl rfl (fun tb => by cases tb <;> rfl) rfl

theorem withReadData (h : Scheduled [] s) (b : Option Byte) : Scheduled [] (s.withReadData b) :=
  h.frame rfl rfl rfl (fun tb => by cases tb <;> rfl) rfl

theorem withTrigs (h : Scheduled [] s) (v : Vector Channel 4) : Scheduled [] (s.withTrigs v) :=
  h.frame rfl rfl rfl (fun tb => by cases tb <;> rfl) rfl

theorem withPending (h : Scheduled [] s) (v : List Instr) : Scheduled [] (s.withPending v) :=
  h.frame rfl rfl rfl (fun tb => by cases tb <;> rfl) rfl

theorem withFreeIndex (h : Scheduled [] s) (i : Nat) : Scheduled [] (s.withFreeIndex i) :=
  h.frame rfl rfl rfl (fun tb => by cases tb <;> rfl) rfl

/-- The timebase unit keeps the laws where it keeps its counters. -/
theorem withTimebase (h : Scheduled [] s) {u : TimebaseUnit} (h0 : u.tb0.count = s.timebase.tb0.count)
    (h1 : u.tb1.count = s.timebase.tb1.count) : Scheduled [] (s.withTimebase u) :=
  h.frame rfl rfl rfl (fun tb => by cases tb; exacts [h0, h1]) rfl

/-- A counter takes any value while its due list is empty (R10). -/
theorem setCounter_empty (h : Scheduled [] s) {tb : Timebase} (hl : s.list (.due tb) = []) (c : Counter) :
    Scheduled [] (s.setCounter tb c) := by
  have hslot := s.slot_setCounter tb c
  have hlist := s.list_setCounter tb c
  have hline := s.line_setCounter tb c
  have hstop : (s.setCounter tb c).stop = s.stop := by cases tb <;> rfl
  have hdist : ∀ tb', tb' ≠ tb → ∀ y, (s.setCounter tb c).distanceOn tb' y = s.distanceOn tb' y := fun tb' htb y => by
    rw [State.distanceOn, State.distanceOn, hslot, State.now, State.now, State.counterOf_setCounter_ne _ _ htb]
  obtain ⟨hstanding, -, hlines, hstopWf⟩ := h
  refine ⟨⟨fun y => ?_, fun r => ?_, fun y r => ?_, fun y r => ?_, fun tb' => ?_, fun tb' y => ?_⟩, by simp,
    hlines.congr hslot hline, ?_⟩
  · rw [hslot]; exact hstanding.slots y
  · rw [hlist]; exact hstanding.nodup r
  · rw [hslot, hlist]; exact hstanding.stands y r
  · rw [hslot, hlist]; exact hstanding.listed y r
  · rw [hlist]
    by_cases htb : tb' = tb
    · rw [htb, hl]; exact .nil
    · simp only [hdist tb' htb]; exact hstanding.sorted tb'
  · rw [hlist]
    by_cases htb : tb' = tb
    · rw [htb, hl]; simp
    · rw [hdist tb' htb]; exact hstanding.ahead tb' y
  · simp only [StopWf, State.stopAsserted, hslot, hline, hstop]
    exact hstopWf

/-- STOP# moves to released, or stays where it is with another count or with STOPL cleared while it is released. -/
theorem withStop (h : Scheduled [] s) {m : StopMonitor}
    (hm : m.level = .low → s.stop.level = .low ∧ (s.stop.stopl = true → m.stopl = true)) :
    Scheduled [] (s.withStop m) := by
  refine ⟨h.standing.congr (fun _ => rfl) (fun _ => rfl) fun tb => by cases tb <;> rfl, by simp,
    h.lines.congr (fun _ => rfl) fun _ => rfl, fun ha => ?_⟩
  obtain ⟨hlow, hkeep⟩ := hm (of_decide_eq_true ha)
  obtain ⟨hstopl, hidle, hlines⟩ := h.stop (decide_eq_true hlow)
  exact ⟨hkeep hstopl, hidle, hlines⟩

/-! ### The record port (R27, R30) -/

theorem commit (h : Scheduled [] s) (x : SlotNo) {c : SlotConfig} (hc : FormatOk c) : Scheduled [] (s.commit x c).1 := by
  have hw := h.standing.slots x
  unfold State.commit
  split
  · next hs => exact h.setSlot_idle (.inr hs) ⟨hc.1, hc.2, rfl⟩ (.inl rfl)
  · next hs =>
    refine h.setSlot_idle (.inl hs) ⟨hc.1, hc.2, ?_⟩ (.inl hs)
    obtain ⟨-, -, hstate⟩ := hw
    simp only [hs] at hstate ⊢
    exact hstate
  · exact h
  · exact h

theorem recordWrite (h : Scheduled [] s) (b : Byte) : Scheduled [] (s.recordWrite b) := by
  unfold State.recordWrite State.completeImage
  split
  · exact h.withRecord _
  · refine Scheduled.withRecord ?_ _
    split
    · next hc => exact h.commit _ (formatOk_of_imageConfig hc)
    · exact h

theorem recordRead (h : Scheduled [] s) : Scheduled [] s.recordRead := by
  obtain ⟨p, hp⟩ := reaches_recordRead s
  rw [hp]
  exact h.withRecord p

/-! ### The command engine -/

theorem transferRead (h : Scheduled [] s) : Scheduled [] s.transferRead := by
  obtain ⟨e, he | he⟩ := reaches_transferRead s
  · rw [he]
    exact h.withEngine e
  · rw [he]
    exact (h.withReports _).withEngine e

/-- The arm attempts of a block, up to the first that fails (R140). -/
theorem armEntries (h : Scheduled [] s) (mode : ArmMode) (bs : List Byte) : Scheduled [] (s.armEntries mode bs).1 := by
  induction bs generalizing s with
  | nil => exact h
  | cons b bs ih =>
    unfold State.armEntries
    split
    · exact h
    · next x _ =>
      have hattempt := h.armAttempt mode x
      split
      · next heq =>
        rw [heq] at hattempt
        exact ih (hattempt.withEngine _)
      · next heq =>
        rw [heq] at hattempt
        exact hattempt

theorem processBlock (h : Scheduled [] s) : Scheduled [] s.processBlock := by
  have hentries := h.armEntries (optionMode s.engine.latched.option) s.engine.buffer.bytes
  unfold State.processBlock
  split
  · next heq =>
    rw [heq] at hentries
    exact (hentries.withEngine _).withEngine _
  · next heq =>
    rw [heq] at hentries
    split
    · exact hentries.withEngine _
    · exact hentries.withEngine _

theorem statusCleared (h : Scheduled [] s) : Scheduled [] s.statusCleared := by
  unfold State.statusCleared
  refine (h.withEngine _).withStop fun hlow => ⟨hlow, fun hl => ?_⟩
  have ha : s.stopAsserted = true := decide_eq_true hlow
  rw [ha, Bool.and_true]
  exact hl

/-- The effect of a completion at the owning block. -/
theorem effect (h : Scheduled [] s) (he : Effect s t) : Scheduled [] t := by
  cases he with
  | none => exact h
  | arm mode x => exact h.armAttempt mode x
  | armOnTrigger x n => exact h.waitArm x n
  | cancel x cut => exact h.cancel x cut
  | release x hx => exact h.setSlot_idle (.inl hx) ⟨by decide, by decide, rfl⟩ (.inr rfl)
  | clearReports => exact h.withReports _
  | setTimebase tb w hl => exact h.setCounter_empty hl _
  | setRuns o r => exact h.withTimebase (by simp only; split <;> rfl) (by simp only; split <;> rfl)
  | setTick code => exact h.withTimebase rfl rfl
  | results p => exact h.withEngine _
  | configureLine l p v ho =>
    refine h.setLine_unowned ho ho rfl fun ha => ⟨rfl, ?_⟩
    rw [Line.configure, ha]
    exact electrical_logicalFor p v
  | forceLine l v hs ho =>
    refine h.setLine_unowned ho ho rfl fun ha => ?_
    rw [(stopAsserted_eq_false_iff s).2 hs] at ha
    cases ha
  | configureTrigger n c => exact h.setTrig n c
  | flush n => exact h.flush n
  | queryTrigger p n c => exact (h.withEngine _).setTrig n c
  | setBlock k _ => exact h.withEngine _

/-- Every event keeps the laws of the schedule. -/
theorem event (h : Scheduled [] s) (he : Event s t) : Scheduled [] t := by
  cases he with
  | none => exact h
  | baseTick => exact ((h.withTimebase (u := { s.timebase with clkCount := 0 }) rfl rfl).lineTick).withTrigs _
  | lineTick => exact h.lineTick
  | trigTick => exact h.withTrigs _
  | advance tb fresh => exact h.advance tb fresh
  | cntLevel v => exact h.withTimebase rfl rfl
  | cntRise => exact (h.withTimebase (u := { s.timebase with cntLevel := .high }) rfl rfl).advance _ _
  | channel n c => exact h.setTrig n c
  | edge n c => exact (h.setTrig n c).takeEdge n
  | stopSampled k => exact h.withStop fun hlow => ⟨hlow, id⟩
  | stopAsserted _ => exact h.assertStop
  | stopReleased => exact h.withStop fun hlow => by cases hlow
  | held => exact h.frame rfl rfl rfl (fun tb => by cases tb <;> rfl) rfl
  | powerOn pins => exact .powerOn s pins
  | recordWrite b => exact h.recordWrite b
  | recordRead b => exact h.recordRead.withReadData _
  | writeCursor b => exact h.withRecord _
  | readCursor b => exact h.withRecord _
  | transferRead b => exact h.transferRead.withReadData _
  | transferWrite b =>
    obtain ⟨e, he⟩ := reaches_transferWrite s b
    rw [he]
    exact h.withEngine e
  | statusRead b => exact h.statusCleared.withReadData _
  | params p => exact h.withEngine _
  | command b =>
    obtain ⟨e, he⟩ := reaches_writeCommand s b
    rw [he]
    exact h.withEngine e
  | abort =>
    obtain ⟨e, he⟩ := reaches_abortCommand s
    rw [he]
    exact h.withEngine e
  | softReset => exact h.softReset
  | intEnable b => exact h.frame rfl rfl rfl (fun tb => by cases tb <;> rfl) rfl
  | watermark b => exact h.withReports _
  | completion err heffect => exact (h.effect heffect).withEngine _
  | prepareReports _ _ =>
    obtain ⟨e, he⟩ := reaches_prepareReports s
    rw [he]
    exact h.withEngine e
  | prepareDues _ _ =>
    obtain ⟨e, he⟩ := reaches_prepareDues s
    rw [he]
    exact h.withEngine e
  | opening _ => exact h.withEngine _
  | processing _ => exact h.processBlock

/-- A step is an event or a CLK period, which reaches no counter. -/
theorem step (h : Scheduled [] s) (hs : Machine.step s = .next t) : Scheduled [] t := by
  rcases step_cases hs with ⟨rest, he⟩ | ⟨clk, i, rest, rfl⟩
  · exact (h.withPending rest).event he
  · exact ((h.withTimebase (u := { s.timebase with clkCount := clk }) rfl rfl).withFreeIndex i).withPending rest

end Scheduled

end Sys2Proof.Machine

namespace Sys2Proof.Proofs

open Sys2Proof.Machine

/-- Settles O59: the laws of the schedule are those of `Scheduled` with no slot about to fire, which every event keeps. -/
theorem everyStepKeepsSchedule : Obligations.EveryStepKeepsSchedule := fun _ _ h hs =>
  scheduled_nil_iff.1 ((scheduled_nil_iff.2 h).step hs)

end Sys2Proof.Proofs
end

section
/-! PROOFS. The report queue and the record port under every event, the statement that every step keeps their bounds, and the
state after reset. -/

namespace Sys2Proof.Machine

open Sys2Proof.Claims

/-! ## The block of ARM BATCH at the other blocks (R140) -/

/-- A scheduling operation is one whatever the engine holds. -/
theorem SchedStep.withEngine {s t : State} (h : SchedStep s t) (e : Engine) :
    SchedStep (s.withEngine e) (t.withEngine e) :=
  ⟨h.pending, h.resetHeld, h.readData, h.timebase, h.trigs, h.record, rfl, h.intEnable, h.stop, h.freeIndex, h.reports⟩

theorem lower_toNat {n : Nat} (x : BitVec n) : (lower x).toNat = x.toNat - 1 := by
  unfold lower
  split
  · next h => simp [h]
  · next h =>
    have hpos : x.toNat ≠ 0 := fun h0 => h (BitVec.eq_of_toNat_eq (by simpa using h0))
    have hn : n ≠ 0 := by rintro rfl; exact hpos (by have := x.isLt; omega)
    have h1 : (1#n).toNat = 1 := by simp [BitVec.toNat_ofNat, Nat.one_mod_two_pow_eq_one.2 (Nat.pos_of_ne_zero hn)]
    have hle : (1#n) ≤ x := by rw [BitVec.le_def, h1]; omega
    have hsub := BitVec.toNat_sub_of_le hle
    rw [h1] at hsub
    exact hsub

/-- The arm attempts of a block are scheduling operations, and they lower REMAIN. -/
theorem armEntries_frame (s : State) (mode : ArmMode) (bs : List Byte) :
    SchedStep s ((s.armEntries mode bs).1.withEngine s.engine) ∧
      ∃ r, (s.armEntries mode bs).1.engine = { s.engine with remain := r } ∧ r.toNat ≤ s.engine.remain.toNat := by
  have hsame : ∀ {t : State}, SchedStep s t → SchedStep s (t.withEngine s.engine) ∧
      ∃ r, t.engine = { s.engine with remain := r } ∧ r.toNat ≤ s.engine.remain.toNat := fun {t} ht => by
    refine ⟨?_, s.engine.remain, ht.engine, le_rfl⟩
    rw [← ht.engine, State.withEngine_self]
    exact ht
  induction bs generalizing s with
  | nil => exact hsame (.refl s)
  | cons b bs ih =>
    unfold State.armEntries
    split
    · exact hsame (.refl s)
    · next x _ =>
      have hattempt := s.armAttempt_schedStep mode x
      split
      · next t heq =>
        rw [heq] at hattempt
        obtain ⟨hrest, r, hr, hle⟩ := ih t.lowerRemain fun ht => by
          refine ⟨?_, _, ht.engine, le_rfl⟩
          rw [← ht.engine, State.withEngine_self]
          exact ht
        refine ⟨hattempt.trans ?_, r, ?_, ?_⟩
        · have hback := hrest.withEngine t.engine
          rw [← hattempt.engine]
          exact hback
        · rw [hr, State.lowerRemain, State.engine_withEngine, hattempt.engine]
        · rw [State.lowerRemain, State.engine_withEngine, hattempt.engine, lower_toNat] at hle
          omega
      · next heq =>
        rw [heq] at hattempt
        exact hsame hattempt

theorem reports_armEntries (s : State) (mode : ArmMode) (bs : List Byte) :
    s.reports.Extends (s.armEntries mode bs).1.reports := (armEntries_frame s mode bs).1.reports

theorem record_armEntries (s : State) (mode : ArmMode) (bs : List Byte) :
    (s.armEntries mode bs).1.record = s.record := (armEntries_frame s mode bs).1.record

/-- A block processing reaches the engine besides what its arm attempts do. -/
theorem processBlock_eq (s : State) : ∃ e, s.processBlock =
    (s.armEntries (optionMode s.engine.latched.option) s.engine.buffer.bytes).1.withEngine e := by
  unfold State.processBlock
  split
  · next heq => rw [heq]; exact ⟨_, rfl⟩
  · next heq =>
    rw [heq]
    split
    · exact ⟨_, rfl⟩
    · exact ⟨_, rfl⟩

/-! ## The report queue (R120, R179) -/

section

variable {s t : State}

theorem queueWf_powerOn : QueueWf .powerOn := by decide

theorem queueWf_extends {q q' : ReportQueue} (h : QueueWf q) (he : q.Extends q') : QueueWf q' :=
  ⟨he.bounded h.1, by rw [he.watermark]; exact h.2⟩

theorem watermarkOf_bounds (b : Byte) : 1 ≤ watermarkOf b ∧ watermarkOf b ≤ 32 := by
  unfold watermarkOf
  split
  · decide
  · next h =>
    have : b.toNat ≠ 0 := fun h0 => h (BitVec.eq_of_toNat_eq h0)
    omega

theorem queueWf_cleared {q : ReportQueue} (h : QueueWf q) : QueueWf q.cleared := ⟨by simp [ReportQueue.cleared], h.2⟩

theorem queueWf_effect (h : QueueWf s.reports) (he : Effect s t) : QueueWf t.reports := by
  cases he with
  | arm mode x => exact queueWf_extends h (s.armAttempt_schedStep mode x).reports
  | armOnTrigger x n => exact queueWf_extends h (s.waitArm_schedStep x n).reports
  | cancel x cut => exact queueWf_extends h (s.cancel_schedStep x cut).reports
  | flush n => exact queueWf_extends h (s.flush_schedStep n).reports
  | clearReports => exact queueWf_cleared h
  | setTimebase tb _ _ => cases tb <;> exact h
  | _ => exact h

theorem queueWf_tail {q : ReportQueue} (h : QueueWf q) : QueueWf { q with entries := q.entries.tail } :=
  ⟨(List.length_tail ▸ Nat.sub_le _ _).trans h.1, h.2⟩

theorem queueWf_event (h : QueueWf s.reports) (he : Event s t) : QueueWf t.reports := by
  cases he with
  | advance tb fresh =>
    obtain ⟨u, hu⟩ := advance_frame s tb fresh
    exact queueWf_extends h hu.reports
  | cntRise =>
    obtain ⟨u, hu⟩ := advance_frame (s.withTimebase { s.timebase with cntLevel := .high }) .tb1 false
    exact queueWf_extends h hu.reports
  | edge n c => exact queueWf_extends h ((s.setTrig n c).takeEdge_schedStep n).reports
  | stopAsserted _ =>
    rw [State.reports_withStop]
    exact queueWf_extends h s.giveUp_schedStep.reports
  | powerOn pins => exact queueWf_powerOn
  | recordWrite b =>
    obtain ⟨v, p, hp⟩ := reaches_recordWrite s b
    rw [hp]
    exact h
  | recordRead b =>
    obtain ⟨p, hp⟩ := reaches_recordRead s
    rw [State.returning, hp]
    exact h
  | transferRead b =>
    obtain ⟨e, he | he⟩ := reaches_transferRead s
    · rw [State.returning, he]
      exact h
    · rw [State.returning, he]
      exact queueWf_tail h
  | transferWrite b =>
    obtain ⟨e, he⟩ := reaches_transferWrite s b
    rw [he]
    exact h
  | command b =>
    obtain ⟨e, he⟩ := reaches_writeCommand s b
    rw [he]
    exact h
  | abort =>
    obtain ⟨e, he⟩ := reaches_abortCommand s
    rw [he]
    exact h
  | softReset => exact queueWf_cleared h
  | watermark b => exact ⟨h.1, watermarkOf_bounds b⟩
  | completion err heffect =>
    have hdone := queueWf_effect h heffect
    exact hdone
  | prepareReports _ _ =>
    obtain ⟨e, he⟩ := reaches_prepareReports s
    rw [he]
    exact h
  | prepareDues _ _ =>
    obtain ⟨e, he⟩ := reaches_prepareDues s
    rw [he]
    exact h
  | processing _ =>
    obtain ⟨e, he⟩ := processBlock_eq s
    rw [he]
    exact queueWf_extends h (reports_armEntries s _ _)
  | _ => exact h

theorem queueWf_step (h : QueueWf s.reports) (hs : step s = .next t) : QueueWf t.reports := by
  rcases step_cases hs with ⟨rest, he⟩ | ⟨clk, i, rest, rfl⟩
  · exact queueWf_event (s := s.withPending rest) h he
  · exact h

/-! ## The record port (Table 3-1) -/

theorem recordWf_powerOn : RecordWf .powerOn := ⟨by decide, by decide, rfl⟩

/-- Another side or another cursor of the port does not count. -/
theorem recordWf_staging {p q : RecordPort} (h : RecordWf p) (hw : q.writeStaging.length ≤ 15)
    (hpos : q.readPos = p.readPos) (hread : q.readStaging = p.readStaging) : RecordWf q := by
  rw [RecordWf, hpos, hread]
  exact ⟨hw, h.2⟩

theorem length_readImage (x : Slot) : (readImage x).length = 24 := rfl

/-- A snapshot stands at a position of 0 to 23. -/
theorem recordWf_snapshot {p : RecordPort} (h : RecordWf p) {img : List Byte} (himg : img.length = 24) {k : Nat}
    (hk : k ≤ 23) (x : SlotNo) :
    RecordWf { p with readCursor := x, readPos := k, readStaging := some img, last := .read } := ⟨h.1, hk, himg⟩

theorem length_readSource (h : RecordWf s.record) : s.readSource.length = 24 := by
  obtain ⟨-, -, hstaging⟩ := h
  unfold State.readSource
  split
  · next hs => rw [hs] at hstaging; exact hstaging
  · rfl

theorem recordWf_recordRead (h : RecordWf s.record) : RecordWf s.recordRead.record := by
  unfold State.recordRead
  split
  · next hpos => exact recordWf_snapshot h (length_readSource h) (by omega) s.record.readCursor
  · exact recordWf_snapshot h (length_readImage _) (by omega) _

theorem recordWf_recordWrite (h : RecordWf s.record) (b : Byte) : RecordWf (s.recordWrite b).record := by
  unfold State.recordWrite
  split
  · next hlen => exact recordWf_staging h (by rw [State.record_withRecord]; simp; omega) rfl rfl
  · exact recordWf_staging h (Nat.zero_le _) rfl rfl

theorem record_effect (he : Effect s t) : t.record = s.record := by
  cases he with
  | arm mode x => exact (s.armAttempt_schedStep mode x).record
  | armOnTrigger x n => exact (s.waitArm_schedStep x n).record
  | cancel x cut => exact (s.cancel_schedStep x cut).record
  | flush n => exact (s.flush_schedStep n).record
  | setTimebase tb _ _ => cases tb <;> rfl
  | _ => rfl

theorem recordWf_event (h : RecordWf s.record) (he : Event s t) : RecordWf t.record := by
  have hkeep : ∀ {p}, p = s.record → RecordWf p := fun hp => hp ▸ h
  cases he with
  | advance tb fresh =>
    obtain ⟨u, hu⟩ := advance_frame s tb fresh
    exact hkeep hu.record
  | cntRise =>
    obtain ⟨u, hu⟩ := advance_frame (s.withTimebase { s.timebase with cntLevel := .high }) .tb1 false
    exact hkeep hu.record
  | edge n c => exact hkeep ((s.setTrig n c).takeEdge_schedStep n).record
  | stopAsserted _ =>
    rw [State.record_withStop]
    exact hkeep s.giveUp_schedStep.record
  | held => exact recordWf_powerOn
  | powerOn pins => exact recordWf_powerOn
  | recordWrite b => exact recordWf_recordWrite h b
  | recordRead b => exact recordWf_recordRead h
  | writeCursor b => exact recordWf_staging h (Nat.zero_le _) rfl rfl
  | readCursor b => exact recordWf_snapshot h (length_readImage _) (Nat.zero_le _) _
  | transferRead b =>
    obtain ⟨e, he | he⟩ := reaches_transferRead s
    · rw [State.returning, he]
      exact h
    · rw [State.returning, he]
      exact h
  | transferWrite b =>
    obtain ⟨e, he⟩ := reaches_transferWrite s b
    rw [he]
    exact h
  | command b =>
    obtain ⟨e, he⟩ := reaches_writeCommand s b
    rw [he]
    exact h
  | abort =>
    obtain ⟨e, he⟩ := reaches_abortCommand s
    rw [he]
    exact h
  | softReset => exact ⟨Nat.zero_le _, Nat.zero_le _, rfl⟩
  | completion err heffect =>
    have hdone := record_effect heffect
    exact hkeep hdone
  | prepareReports _ _ =>
    obtain ⟨e, he⟩ := reaches_prepareReports s
    rw [he]
    exact h
  | prepareDues _ _ =>
    obtain ⟨e, he⟩ := reaches_prepareDues s
    rw [he]
    exact h
  | processing _ =>
    obtain ⟨e, he⟩ := processBlock_eq s
    rw [he]
    exact hkeep (record_armEntries s _ _)
  | _ => exact h

theorem recordWf_step (h : RecordWf s.record) (hs : step s = .next t) : RecordWf t.record := by
  rcases step_cases hs with ⟨rest, he⟩ | ⟨clk, i, rest, rfl⟩
  · exact recordWf_event (s := s.withPending rest) h he
  · exact h

end

end Sys2Proof.Machine

namespace Sys2Proof.Proofs

open Sys2Proof.Machine

/-- Settles O57: the two laws are kept by every event, and a CLK period reaches neither block. -/
theorem everyStepKeepsQueueAndRecordPort : Obligations.EveryStepKeepsQueueAndRecordPort :=
  ⟨fun _ _ h hs => queueWf_step h hs, fun _ _ h hs => recordWf_step h hs⟩

end Sys2Proof.Proofs
end

section
/-! PROOFS. The handshake of the command engine under every event: acceptance, completion, and the blocks of the three
transfer commands (R131, R132, R136 to R140), and the statement that every step keeps it. -/

namespace Sys2Proof.Machine

open Sys2Proof.Claims

/-! ## Phases (Table 9-3) -/

/-- The engine with no command in progress (R132). -/
structure Ended (e : Engine) : Prop where
  phase : e.phase = .idle
  current : e.current = none
  buffer : e.buffer = .empty
  blockLength : e.blockLength = 0
  bytePos : e.bytePos = 0
  snapshot : e.snapshot = []
  delivered : e.delivered = 0
  err : e.err = true ↔ e.error ≠ .none
  blockSize : 1 ≤ e.blockSize ∧ e.blockSize ≤ 8

theorem ended_finish {e : Engine} (h : 1 ≤ e.blockSize ∧ e.blockSize ≤ 8) (err : ErrorCode) : Ended (e.finish err) :=
  ⟨rfl, rfl, rfl, rfl, rfl, rfl, rfl, decide_eq_true_iff, h⟩

theorem ended_softReset {e : Engine} (h : 1 ≤ e.blockSize ∧ e.blockSize ≤ 8) : Ended e.softReset :=
  ⟨rfl, rfl, rfl, rfl, rfl, rfl, rfl, ⟨nofun, fun hne => absurd rfl hne⟩, h⟩

theorem ended_powerOn : Ended .powerOn := ended_softReset (e := .powerOn) (by decide)

section

variable {s t : State}

/-- Between commands every law of an open block is void. -/
theorem handshakeWf_ended (h : Ended s.engine) : HandshakeWf s := by
  have hidle : ∀ {p : Phase}, p ≠ .idle → s.engine.phase = p → False := fun hp hq => hp (hq ▸ h.phase)
  have hbusy : s.engine.phase ≠ .idle → False := fun hne => hne h.phase
  refine ⟨⟨⟨fun _ => h.current, fun _ => h.phase⟩, fun _ => ⟨h.buffer, h.blockLength, h.bytePos, h.snapshot, h.delivered⟩,
      fun hne => (hbusy hne).elim, h.err, fun hne => (hbusy hne).elim, h.blockSize,
      fun ht => (hidle (by decide) ht).elim⟩,
    fun ht => (hidle (by decide) ht).elim, fun ht => (hidle (by decide) ht).elim,
    fun _ => ⟨fun ht => (hidle (by decide) ht).elim, fun he => (hidle (by decide) he).elim⟩⟩

/-- The handshake reads the engine, and of the queue its leading entries only. -/
theorem handshakeWf_extends (h : HandshakeWf s) (he : t.engine = s.engine)
    (hr : s.reports.entries <+: t.reports.entries) : HandshakeWf t := by
  obtain ⟨hphase, hreports, hdues, hbatch⟩ := h
  refine ⟨by rwa [he], fun ht hc => ?_, by rwa [DueBlockWf, he], by rwa [he]⟩
  rw [he] at ht hc ⊢
  have hopen := hreports ht hc
  split at hopen
  · next hb =>
    obtain ⟨hlen, hpos, hhead, hremain⟩ := hopen
    exact ⟨hlen, hpos, hhead.trans hr, hremain⟩
  · exact hopen

theorem handshakeWf_schedStep (h : HandshakeWf s) (hs : SchedStep s t) : HandshakeWf t :=
  handshakeWf_extends h hs.engine hs.reports.head

/-! ## Acceptance and completion -/

theorem handshakeWf_writeCommand (h : HandshakeWf s) (b : Byte) : HandshakeWf (s.writeCommand b) := by
  by_cases hp : s.engine.phase = .idle
  · obtain ⟨⟨-, hidle, -, -, -, hsize, -⟩, -⟩ := h
    obtain ⟨-, hlength, hpos, -⟩ := hidle hp
    have hremain : ((if counted (commandOf b) then s.engine.params.count else 0 : Byte)).toNat ≤
        s.engine.params.count.toNat := by
      split
      · exact le_rfl
      · exact Nat.zero_le _
    rw [writeCommand_idle hp]
    refine ⟨⟨⟨nofun, nofun⟩, nofun, fun _ => rfl, ⟨nofun, fun hne => absurd rfl hne⟩, fun _ => hremain, hsize, nofun⟩,
      nofun, nofun, fun hc => ⟨nofun, fun _ => ⟨hpos, fun _ => ?_, fun hne => absurd hlength hne⟩⟩⟩
    have hcount : counted (commandOf b) = true := by
      have hb : commandOf b = some .armBatch := hc
      rw [hb]
      rfl
    exact if_pos hcount
  · rw [writeCommand_busy hp]
    exact h

theorem blockSize_effect (h : 1 ≤ s.engine.blockSize ∧ s.engine.blockSize ≤ 8) (he : Effect s t) :
    1 ≤ t.engine.blockSize ∧ t.engine.blockSize ≤ 8 := by
  have hkeep : t.engine = s.engine → 1 ≤ t.engine.blockSize ∧ t.engine.blockSize ≤ 8 := fun he => by rwa [he]
  cases he with
  | arm mode x => exact hkeep (s.armAttempt_schedStep mode x).engine
  | armOnTrigger x n => exact hkeep (s.waitArm_schedStep x n).engine
  | cancel x cut => exact hkeep (s.cancel_schedStep x cut).engine
  | flush n => exact hkeep (s.flush_schedStep n).engine
  | setTimebase tb _ _ => exact hkeep (engine_setCounter s tb _)
  | setBlock k hk => exact hk
  | _ => exact h

/-! ## The pending event (R132) -/

theorem pending_preparation (h : s.engine.pendingEvent = .preparation) :
    s.engine.phase = .engine ∧ (s.engine.command = some .readReports ∨ s.engine.command = some .readDueList) ∧
      transferCheck s.engine.command s.engine.latched = .none := by
  unfold Engine.pendingEvent at h
  split at h
  · next hp =>
    split at h
    · next hc =>
      split at h
      · next ht => exact ⟨hp, .inl hc, ht⟩
      · cases h
    · next hc =>
      split at h
      · next ht => exact ⟨hp, .inr hc, ht⟩
      · cases h
    · split at h
      · split at h <;> cases h
      · cases h
    · cases h
  · cases h

theorem pending_batch (h : s.engine.pendingEvent = .opening ∨ s.engine.pendingEvent = .processing) :
    s.engine.phase = .engine ∧ s.engine.command = some .armBatch ∧
      transferCheck (some .armBatch) s.engine.latched = .none := by
  unfold Engine.pendingEvent at h
  split at h
  · next hp =>
    split at h
    · split at h <;> simp at h
    · split at h <;> simp at h
    · next hc =>
      split at h
      · next ht => exact ⟨hp, hc, by rwa [hc] at ht⟩
      · simp at h
    · simp at h
  · simp at h

/-- The pending event of a batch in its ENGINE phase is the opening before the first block, and a processing after each
(R139, R140). -/
theorem pendingEvent_batch (hp : s.engine.phase = .engine) (hc : s.engine.command = some .armBatch)
    (ht : transferCheck (some .armBatch) s.engine.latched = .none) :
    s.engine.pendingEvent = if s.engine.blockLength = 0 then .opening else .processing := by
  simp only [Engine.pendingEvent, if_pos hp, hc, if_pos ht]

theorem blockLength_of_opening (h : s.engine.pendingEvent = .opening) : s.engine.blockLength = 0 := by
  obtain ⟨hp, hc, ht⟩ := pending_batch (.inl h)
  by_contra hne
  rw [pendingEvent_batch hp hc ht, if_neg hne] at h
  cases h

theorem count_of_transferCheck {p : Params} (h : transferCheck (some .armBatch) p = .none) : p.count.toNat ≠ 0 := by
  intro h0
  rw [transferCheck, if_pos (.inl (BitVec.eq_of_toNat_eq h0))] at h
  cases h

/-! ## The opening of a block (R137, R139) -/

/-- A block of a transfer command that passed its acceptance checks may be opened. -/
theorem phaseWf_openBlock {e : Engine} (h : PhaseWf e) (hp : e.phase = .engine) (hcount : counted e.command = true)
    (ht : transferCheck e.command e.latched = .none) (k : Nat) (b : TransferBuffer) : PhaseWf (e.openBlock k b) := by
  obtain ⟨hcurrent, -, herror, herr, hremain, hsize, -⟩ := h
  have hbusy : e.phase ≠ .idle := by rw [hp]; decide
  exact ⟨⟨nofun, fun hc => absurd (hcurrent.2 hc) hbusy⟩, nofun, fun _ => herror hbusy, herr, fun _ => hremain hbusy,
    hsize, fun _ => ⟨hcount, ht⟩⟩

theorem handshakeWf_prepareReports (h : HandshakeWf s) (hp : s.engine.pendingEvent = .preparation)
    (hc : s.engine.command = some .readReports) : HandshakeWf s.prepareReports := by
  obtain ⟨hphase, -, -, -⟩ := h
  obtain ⟨hengine, -, ht⟩ := pending_preparation hp
  simp only [State.prepareReports]
  split
  · exact handshakeWf_ended (ended_finish hphase.2.2.2.2.2.1 .none)
  · next hk =>
    have hk0 : 0 < s.reportBlock := Nat.pos_of_ne_zero hk
    have hkremain : s.reportBlock ≤ s.engine.remain.toNat := (min_le_right _ _).trans (min_le_left _ _)
    have hklevel : s.reportBlock ≤ s.reports.entries.length := (min_le_right _ _).trans (min_le_right _ _)
    have hhead : (s.reports.entries.take s.reportBlock).drop (0 / 16) <+: s.reports.entries := by
      rw [Nat.zero_div]
      exact List.take_prefix _ _
    refine ⟨phaseWf_openBlock hphase hengine (by rw [hc]; rfl) ht _ _,
      fun _ _ => ⟨List.length_take_of_le hklevel, Nat.mul_pos (by decide) hk0, hhead, Nat.le_add_right_of_le hkremain⟩,
      fun _ hd => ?_, fun hb => ?_⟩
    · cases hc.symm.trans hd
    · cases hc.symm.trans hb

theorem handshakeWf_prepareDues (h : HandshakeWf s) (hp : s.engine.pendingEvent = .preparation)
    (hc : s.engine.command ≠ some .readReports) : HandshakeWf s.prepareDues := by
  obtain ⟨hphase, -, -, -⟩ := h
  obtain ⟨hengine, hcommand, ht⟩ := pending_preparation hp
  have hdue := hcommand.resolve_left hc
  simp only [State.prepareDues]
  split
  · exact handshakeWf_ended (ended_finish hphase.2.2.2.2.2.1 .none)
  · next hk =>
    have hk0 : 0 < s.dueBlock := Nat.pos_of_ne_zero hk
    have hkremain : s.dueBlock ≤ s.engine.remain.toNat := (min_le_right _ _).trans (min_le_left _ _)
    have hkleft : s.dueBlock ≤ (s.engine.snapshot.drop s.engine.delivered).length := by
      rw [List.length_drop]
      exact (min_le_right _ _).trans (min_le_right _ _)
    have hhead : ((s.engine.snapshot.drop s.engine.delivered).take s.dueBlock).drop (0 / 8) <+:
        s.engine.snapshot.drop s.engine.delivered := by
      rw [Nat.zero_div]
      exact List.take_prefix _ _
    refine ⟨phaseWf_openBlock hphase hengine (by rw [hdue]; rfl) ht _ _, fun _ hr => absurd hr hc,
      fun _ _ => ⟨List.length_take_of_le hkleft, Nat.mul_pos (by decide) hk0, hhead, Nat.le_add_right_of_le hkremain⟩,
      fun hb => ?_⟩
    cases hdue.symm.trans hb

/-- The next block of ARM BATCH is opened while entries remain (R139). -/
theorem handshakeWf_openSlots (hphase : PhaseWf s.engine) (hengine : s.engine.phase = .engine)
    (hc : s.engine.command = some .armBatch) (ht : transferCheck (some .armBatch) s.engine.latched = .none)
    (hremain : s.engine.remain.toNat ≠ 0) : HandshakeWf s.openSlots := by
  have hsize := hphase.2.2.2.2.2.1
  have hk : 0 < s.engine.slotBlock := lt_min (by omega) (by omega)
  refine ⟨phaseWf_openBlock hphase hengine (by rw [hc]; rfl) (by rwa [hc]) _ _, fun _ hr => ?_, fun _ hd => ?_,
    fun _ => ⟨fun _ => ⟨rfl, hk, min_le_right _ _⟩, nofun⟩⟩
  · cases hc.symm.trans hr
  · cases hc.symm.trans hd

theorem handshakeWf_opening (h : HandshakeWf s) (hp : s.engine.pendingEvent = .opening) : HandshakeWf s.openSlots := by
  obtain ⟨hphase, -, -, hbatch⟩ := h
  obtain ⟨hengine, hc, ht⟩ := pending_batch (.inl hp)
  obtain ⟨-, hfirst, -⟩ := (hbatch hc).2 hengine
  refine handshakeWf_openSlots hphase hengine hc ht ?_
  rw [hfirst (blockLength_of_opening hp)]
  exact count_of_transferCheck ht

/-- A block processing ends the command or opens the next block (R140). -/
theorem handshakeWf_processing (h : HandshakeWf s) (hp : s.engine.pendingEvent = .processing) :
    HandshakeWf s.processBlock := by
  obtain ⟨hphase, -, -, -⟩ := h
  obtain ⟨hengine, hc, ht⟩ := pending_batch (.inr hp)
  obtain ⟨-, r, hr, hle⟩ := armEntries_frame s (optionMode s.engine.latched.option) s.engine.buffer.bytes
  have hsize := hphase.2.2.2.2.2.1
  unfold State.processBlock
  split
  · next heq =>
    rw [heq] at hr
    refine handshakeWf_ended (ended_finish ?_ _)
    rw [State.withParams, State.engine_withEngine, hr]
    exact hsize
  · next t heq =>
    rw [heq] at hr
    have hr : t.engine = { s.engine with remain := r } := hr
    split
    · exact handshakeWf_ended (ended_finish (by rw [hr]; exact hsize) .none)
    · next hremain =>
      obtain ⟨hcurrent, hidle, herror, herr, hcount, -, hopen⟩ := hphase
      refine handshakeWf_openSlots ?_ (by rw [hr]; exact hengine) (by rw [hr]; exact hc) (by rw [hr]; exact ht)
        fun h0 => hremain (BitVec.eq_of_toNat_eq h0)
      rw [hr]
      exact ⟨hcurrent, hidle, herror, herr, fun hb => hle.trans (hcount hb), hsize, hopen⟩

/-! ## The bytes of a block (R138, R139) -/

theorem handshakeWf_transferWrite (h : HandshakeWf s) (b : Byte) : HandshakeWf (s.transferWrite b) := by
  obtain ⟨hphase, hreports, hdues, hbatch⟩ := h
  simp only [State.transferWrite]
  split
  · next hw =>
    obtain ⟨htransfer, hc⟩ := of_decide_eq_true hw
    obtain ⟨hlen, hpos, hremain⟩ := (hbatch hc).1 htransfer
    obtain ⟨hcurrent, -, herror, herr, hcount, hsize, hopen⟩ := hphase
    have hbusy : s.engine.phase ≠ .idle := by rw [htransfer]; decide
    have hbytes : (s.engine.buffer.bytes ++ [b]).length = s.engine.bytePos + 1 := by simp [hlen]
    split
    · next hlast =>
      refine ⟨⟨⟨nofun, fun hn => absurd (hcurrent.2 hn) hbusy⟩, nofun, fun _ => herror hbusy, herr,
        fun _ => hcount hbusy, hsize, nofun⟩, nofun, nofun,
        fun _ => ⟨nofun, fun _ => ⟨rfl, fun h0 => ?_, fun _ => ⟨?_, hremain⟩⟩⟩⟩
      · have h0 : s.engine.blockLength = 0 := h0
        omega
      · exact hbytes.trans (by show _ = s.engine.blockLength; omega)
    · next hmore =>
      refine ⟨⟨hcurrent, fun hi => absurd hi hbusy, herror, herr, hcount, hsize, hopen⟩, fun _ hr => ?_, fun _ hd => ?_,
        fun _ => ⟨fun _ => ⟨hbytes, not_le.1 hmore, hremain⟩, fun he => ?_⟩⟩
      · cases hc.symm.trans hr
      · cases hc.symm.trans hd
      · cases htransfer.symm.trans he
  · exact ⟨hphase, hreports, hdues, hbatch⟩

/-- What is left of a read block once `pos` of its bytes are read: the ENGINE phase after the last. -/
def Engine.readOn (e : Engine) (bytes pos : Nat) : Engine :=
  if bytes * e.blockLength ≤ pos then e.endBlock else { e with bytePos := pos }

theorem phaseWf_readOn {e : Engine} (h : PhaseWf e) (hp : e.phase = .transfer) (bytes pos : Nat) :
    PhaseWf (e.readOn bytes pos) := by
  obtain ⟨hcurrent, -, herror, herr, hcount, hsize, hopen⟩ := h
  have hbusy : e.phase ≠ .idle := by rw [hp]; decide
  unfold Engine.readOn
  split
  · exact ⟨⟨nofun, fun hn => absurd (hcurrent.2 hn) hbusy⟩, nofun, fun _ => herror hbusy, herr, fun _ => hcount hbusy,
      hsize, nofun⟩
  · exact ⟨hcurrent, fun hi => absurd hi hbusy, herror, herr, hcount, hsize, hopen⟩

theorem command_readOn (e : Engine) (bytes pos : Nat) : (e.readOn bytes pos).command = e.command := by
  unfold Engine.readOn
  split <;> rfl

/-- The block of READ REPORTS once `pos` bytes are read, where the unread entries are the head of the queue. -/
theorem handshakeWf_readReports {es : List Report} {pos : Nat} (hphase : PhaseWf s.engine)
    (hp : s.engine.phase = .transfer) (hc : s.engine.command = some .readReports) (hb : s.engine.buffer = .reports es)
    (hlen : es.length = s.engine.blockLength) (hhead : es.drop (pos / 16) <+: s.reports.entries)
    (hremain : s.engine.blockLength ≤ s.engine.remain.toNat + pos / 16) :
    HandshakeWf (s.withEngine (s.engine.readOn 16 pos)) := by
  refine ⟨phaseWf_readOn hphase hp 16 pos, fun ht _ => ?_, fun _ hd => ?_, fun hbatch => ?_⟩
  · rw [State.engine_withEngine] at ht ⊢
    unfold Engine.readOn at ht ⊢
    split at ht
    · cases ht
    · next hmore =>
      rw [if_neg hmore]
      simp only [hb]
      exact ⟨hlen, not_le.1 hmore, hhead, hremain⟩
  · rw [State.engine_withEngine, command_readOn, hc] at hd
    cases hd
  · rw [State.engine_withEngine, command_readOn, hc] at hbatch
    cases hbatch

/-- The block of READ DUE LIST once `pos` bytes are read, where the unread entries are the next of the snapshot. -/
theorem handshakeWf_readDues {es : List DueEntry} {pos : Nat} (hphase : PhaseWf s.engine)
    (hp : s.engine.phase = .transfer) (hc : s.engine.command = some .readDueList) (hb : s.engine.buffer = .dues es)
    (hlen : es.length = s.engine.blockLength) (hhead : es.drop (pos / 8) <+: s.engine.snapshot.drop s.engine.delivered)
    (hremain : s.engine.blockLength ≤ s.engine.remain.toNat + pos / 8) :
    HandshakeWf (s.withEngine (s.engine.readOn 8 pos)) := by
  refine ⟨phaseWf_readOn hphase hp 8 pos, fun _ hr => ?_, fun ht _ => ?_, fun hbatch => ?_⟩
  · rw [State.engine_withEngine, command_readOn, hc] at hr
    cases hr
  · rw [State.engine_withEngine] at ht ⊢
    unfold Engine.readOn at ht ⊢
    split at ht
    · cases ht
    · next hmore =>
      rw [if_neg hmore]
      simp only [hb]
      exact ⟨hlen, not_le.1 hmore, hhead, hremain⟩
  · rw [State.engine_withEngine, command_readOn, hc] at hbatch
    cases hbatch

/-- A delivery lowers REMAIN (R136). -/
theorem phaseWf_delivered {e : Engine} (h : PhaseWf e) (hp : e.phase = .transfer) (d : Nat) :
    PhaseWf { e with delivered := d, remain := lower e.remain } := by
  obtain ⟨hcurrent, -, herror, herr, hcount, hsize, hopen⟩ := h
  have hbusy : e.phase ≠ .idle := by rw [hp]; decide
  exact ⟨hcurrent, fun hi => absurd hi hbusy, herror, herr,
    fun _ => (lower_toNat e.remain ▸ Nat.sub_le _ _).trans (hcount hbusy), hsize, hopen⟩

/-- The delivery of READ REPORTS removes the head of the queue (R123). -/
theorem deliver_reports (h : s.engine.command = some .readReports) : s.deliver =
    (s.withReports { s.reports with entries := s.reports.entries.tail }).withEngine
      { s.engine with remain := lower s.engine.remain } := by
  rw [State.deliver, if_pos h]
  rfl

/-- The delivery of READ DUE LIST counts the snapshot entry (R138). -/
theorem deliver_dues (h : s.engine.command = some .readDueList) : s.deliver =
    s.withEngine { s.engine with delivered := s.engine.delivered + 1, remain := lower s.engine.remain } := by
  rw [State.deliver, if_neg (by rw [h]; decide)]
  rfl

/-- A read in an open block of READ REPORTS: the entries behind the one delivered are then the head of the queue. -/
theorem handshakeWf_transferRead_reports (h : HandshakeWf s) (htransfer : s.engine.phase = .transfer)
    (hc : s.engine.command = some .readReports) (hread : s.engine.reading = true) : HandshakeWf s.transferRead := by
  obtain ⟨hphase, hreports, -, -⟩ := h
  have hopen := hreports htransfer hc
  split at hopen
  · next es hb =>
    obtain ⟨hlen, hpos, hhead, hremain⟩ := hopen
    have hbytes : s.engine.entryBytes = 16 := if_pos hc
    rw [transferRead_reading s hread, byteTaken, hbytes]
    split
    · next hlast =>
      have hnext : (s.engine.bytePos + 1) / 16 = s.engine.bytePos / 16 + 1 := by omega
      have hhead' := hhead.drop 1
      rw [List.drop_drop, List.drop_one] at hhead'
      rw [deliver_reports hc]
      refine handshakeWf_readReports (es := es) (phaseWf_delivered hphase htransfer s.engine.delivered) htransfer hc hb
        hlen (by rw [hnext]; exact hhead') ?_
      have hleft : s.engine.blockLength ≤ s.engine.remain.toNat - 1 + (s.engine.bytePos / 16 + 1) := by omega
      rw [hnext, State.engine_withEngine, lower_toNat]
      exact hleft
    · next hmid =>
      have hsame : (s.engine.bytePos + 1) / 16 = s.engine.bytePos / 16 := by omega
      exact handshakeWf_readReports hphase htransfer hc hb hlen (by rwa [hsame]) (by rwa [hsame])
  · exact hopen.elim

/-- A read in an open block of READ DUE LIST: the entries behind the one delivered are then the next of the snapshot. -/
theorem handshakeWf_transferRead_dues (h : HandshakeWf s) (htransfer : s.engine.phase = .transfer)
    (hc : s.engine.command = some .readDueList) (hread : s.engine.reading = true) : HandshakeWf s.transferRead := by
  obtain ⟨hphase, -, hdues, -⟩ := h
  have hopen := hdues htransfer hc
  split at hopen
  · next es hb =>
    obtain ⟨hlen, hpos, hhead, hremain⟩ := hopen
    have hbytes : s.engine.entryBytes = 8 := if_neg (by rw [hc]; decide)
    rw [transferRead_reading s hread, byteTaken, hbytes]
    split
    · next hlast =>
      have hnext : (s.engine.bytePos + 1) / 8 = s.engine.bytePos / 8 + 1 := by omega
      have hhead' := hhead.drop 1
      rw [List.drop_drop, List.drop_drop] at hhead'
      rw [deliver_dues hc]
      refine handshakeWf_readDues (es := es) (phaseWf_delivered hphase htransfer _) htransfer hc hb
        hlen (by rw [hnext]; exact hhead') ?_
      have hleft : s.engine.blockLength ≤ s.engine.remain.toNat - 1 + (s.engine.bytePos / 8 + 1) := by omega
      rw [hnext, State.engine_withEngine, lower_toNat]
      exact hleft
    · next hmid =>
      have hsame : (s.engine.bytePos + 1) / 8 = s.engine.bytePos / 8 := by omega
      exact handshakeWf_readDues hphase htransfer hc hb hlen (by rwa [hsame]) (by rwa [hsame])
  · exact hopen.elim

theorem handshakeWf_transferRead (h : HandshakeWf s) : HandshakeWf s.transferRead := by
  cases hread : s.engine.reading with
  | false => rwa [transferRead_outside s hread]
  | true =>
    obtain ⟨htransfer, hc | hc⟩ := of_decide_eq_true hread
    · exact handshakeWf_transferRead_reports h htransfer hc hread
    · exact handshakeWf_transferRead_dues h htransfer hc hread

/-! ## Every event -/

theorem handshakeWf_event (h : HandshakeWf s) (he : Event s t) : HandshakeWf t := by
  have hsize := h.1.2.2.2.2.2.1
  cases he with
  | advance tb fresh =>
    obtain ⟨u, hu⟩ := advance_frame s tb fresh
    exact handshakeWf_schedStep (s := s.withTimebase u) h hu
  | cntRise =>
    obtain ⟨u, hu⟩ := advance_frame (s.withTimebase { s.timebase with cntLevel := .high }) .tb1 false
    exact handshakeWf_schedStep (s := s.withTimebase u) h hu
  | edge n c => exact handshakeWf_schedStep (s := s.setTrig n c) h ((s.setTrig n c).takeEdge_schedStep n)
  | stopAsserted _ =>
    have hstop := s.giveUp_schedStep
    exact handshakeWf_extends h (by rw [State.engine_withStop, hstop.engine])
      (by rw [State.reports_withStop]; exact hstop.reports.head)
  | powerOn pins => exact handshakeWf_ended ended_powerOn
  | recordWrite b =>
    obtain ⟨v, p, hp⟩ := reaches_recordWrite s b
    rw [hp]
    exact h
  | recordRead b =>
    obtain ⟨p, hp⟩ := reaches_recordRead s
    rw [State.returning, hp]
    exact h
  | transferRead b => exact handshakeWf_transferRead h
  | transferWrite b => exact handshakeWf_transferWrite h b
  | command b => exact handshakeWf_writeCommand h b
  | abort =>
    unfold State.abortCommand
    split
    · exact h
    · exact handshakeWf_ended (ended_finish hsize _)
  | softReset => exact handshakeWf_ended (ended_softReset hsize)
  | completion err heffect => exact handshakeWf_ended (ended_finish (blockSize_effect hsize heffect) err)
  | prepareReports hp hc => exact handshakeWf_prepareReports h hp hc
  | prepareDues hp hc => exact handshakeWf_prepareDues h hp hc
  | opening hp => exact handshakeWf_opening h hp
  | processing hp => exact handshakeWf_processing h hp
  | _ => exact h

theorem handshakeWf_step (h : HandshakeWf s) (hs : step s = .next t) : HandshakeWf t := by
  rcases step_cases hs with ⟨rest, he⟩ | ⟨clk, i, rest, rfl⟩
  · exact handshakeWf_event (s := s.withPending rest) h he
  · exact h

end

end Sys2Proof.Machine

namespace Sys2Proof.Proofs

open Sys2Proof.Machine

/-- Settles O58: each event by the phase it finds, the blocks of a transfer by their command. -/
theorem everyStepKeepsHandshake : Obligations.EveryStepKeepsHandshake := fun _ _ h hs => handshakeWf_step h hs

/-- Settles O60: after reset no slot is ARMED or WAITING, no command is in progress and both queues are empty. -/
theorem resetIsSafe : Obligations.ResetIsSafe :=
  ⟨queueWf_powerOn, recordWf_powerOn, handshakeWf_ended ended_powerOn,
    scheduled_nil_iff.1 (.powerOn State.reset resetPins)⟩

end Sys2Proof.Proofs
end

section
/-! PROOFS. Advances and chains (chapters 1, 4 and 5): an advance as the fire of the run that it reaches, the fire of its one
entry, the chain attempt behind it, and the statements about them. -/

namespace Sys2Proof.Machine

open Sys2Proof.Claims

/-! ## An advance (R4, R5, R61) -/

section

variable {s : State} {a : AdvanceOf}

theorem now_withTimebase_counted (s : State) (a : AdvanceOf) :
    (s.withTimebase (Claims.counted s.timebase a)).now (timebaseOf a) = s.now (timebaseOf a) + 1 := by
  cases a <;> rfl

/-- While its timebase is HELD an advance counts nothing; one of TB1 leaves the CNT level high (R4, R5). -/
theorem exec_advance_held (hr : s.resetHeld = false) (h : (s.counterOf (timebaseOf a)).run = .held) :
    exec (.advance a) s =
      .next (if a = .tb1 then s.withTimebase { s.timebase with cntLevel := .high } else s) := by
  cases a with
  | tb0 b =>
    have h : (s.counterOf .tb0).run = .held := h
    rw [exec_advance_tb0 b hr, State.advance, h]
    rfl
  | tb1 =>
    have h : ((s.withTimebase { s.timebase with cntLevel := .high }).counterOf .tb1).run = .held := h
    rw [exec_advance_tb1 hr, State.cntRise, State.advance, h]
    rfl

/-- While its timebase is RUNNING an advance counts and fires the run of entries that it reaches (R61). -/
theorem exec_advance_running (hr : s.resetHeld = false) (h : (s.counterOf (timebaseOf a)).run = .running) :
    exec (.advance a) s =
      .next ((s.withTimebase (Claims.counted s.timebase a)).fireRun (reachedAt s a) (freshOf a)) := by
  cases a with
  | tb0 b =>
    have h : (s.counterOf .tb0).run = .running := h
    rw [exec_advance_tb0 b hr, State.advance, h]
    rfl
  | tb1 =>
    have h : ((s.withTimebase { s.timebase with cntLevel := .high }).counterOf .tb1).run = .running := h
    rw [exec_advance_tb1 hr, State.cntRise, State.advance, h]
    rfl

/-- A run of fires is the fires of its slots in turn (R61). -/
theorem fireInTurn_fireRun (fresh : Bool) (xs : List SlotNo) (s : State) : FireInTurn fresh xs s (s.fireRun xs fresh) := by
  induction xs generalizing s with
  | nil => exact rfl
  | cons x xs ih => exact ⟨_, fires_fire s x .fired fresh, ih _⟩

/-- An advance that reaches one entry fires it. -/
theorem exec_advance_fires {x : SlotNo} (h : FiresAt s a x) : exec (.advance a) s =
    .next ((s.withTimebase (Claims.counted s.timebase a)).fire x .fired (freshOf a)) := by
  obtain ⟨hr, hrun, hone, -⟩ := h
  rw [exec_advance_running hr hrun, hone]
  rfl

/-- A rising edge of CNT is a TB1 advance (R5). -/
theorem exec_cntEdge_rise (hr : s.resetHeld = false) (hlow : s.timebase.cntLevel = .low) :
    exec (.cntEdge .high) s = exec (.advance .tb1) s := by
  rw [exec_cntEdge _ hr, exec_advance_tb1 hr, State.cntSample, if_pos ⟨hlow, rfl⟩]
  rfl

end

/-! ## The report of a fire (R63) -/

theorem fireReport_last {s : State} {x : SlotNo} (kind : ReportKind) (h : LastFire (s.slot x)) :
    fireReport s x kind = lastFireReport s x kind (s.slot x).run.due (s.now (s.slot x).config.timebase)
      (s.slot x).run.unlimited (s.line (s.slot x).config.line) := by
  simp only [fireReport, lastFireReport, remainingAfterFire, if_pos (Or.inl h), decide_eq_true h]
  rfl

/-- The last fire of a slot with chain enable clear: HELD, out of its due list, its line acted on and released, and its
report handed to the queue with FINAL (R63, R64). -/
theorem fire_last (s : State) (x : SlotNo) (kind : ReportKind) (fresh : Bool) (hl : LastFire (s.slot x))
    (hc : (s.slot x).config.chainEnable = false) :
    s.fire x kind fresh = (((s.withSlots (s.fire x kind fresh).slots).withSched (s.fire x kind fresh).sched).withLines
      (s.fire x kind fresh).lines).withReports (s.fire x kind fresh).reports ∧
    OnlyItsRun s (s.fire x kind fresh) x heldRun ∧
    (s.fire x kind fresh).list (.due (s.slot x).config.timebase) = (s.list (.due (s.slot x).config.timebase)).erase x ∧
    (∀ r, r ≠ .due (s.slot x).config.timebase → (s.fire x kind fresh).list r = s.list r) ∧
    OnlyItsLine s (s.fire x kind fresh) x
      (fun l => releasedBy x (acted (s.slot x).config.action (s.slot x).config.width fresh l)) ∧
    (s.fire x kind fresh).reports = handed (s.slot x).config.reportEnable
      (lastFireReport s x kind (s.slot x).run.due (s.now (s.slot x).config.timebase) (s.slot x).run.unlimited
        (s.line (s.slot x).config.line)) s.reports := by
  obtain ⟨heq, hrun, hlist, -, hother, hline, hreports⟩ := firesItself_fireOwn s x kind fresh
  simp only [if_pos hl] at hrun hline
  rw [s.fire_unchained x kind fresh hc]
  exact ⟨heq, hrun, hlist hl, hother, hline, hreports.trans (by rw [fireReport_last _ hl])⟩

/-! ## The state that the three own steps of a fire leave (R77, R79) -/

section

variable {s m : State} {x : SlotNo} {kind : ReportKind} {fresh : Bool}

/-- The fire changes the state of the firing slot only, which its last fire makes HELD. -/
theorem slot_after_fire (h : FiresItself s m x kind fresh) (y : SlotNo) :
    (m.slot y).config = (s.slot y).config ∧
      (m.slot y).run.state = if y = x ∧ LastFire (s.slot x) then .held else (s.slot y).run.state := by
  obtain ⟨-, hrun, -⟩ := h
  rw [hrun y]
  by_cases hyx : y = x
  · subst hyx
    by_cases hl : LastFire (s.slot y) <;> simp [hl, heldRun]
  · simp [hyx]

theorem held_after_fire (h : FiresItself s m x kind fresh) (y : SlotNo) :
    (m.slot y).run.state = .held ↔ HeldAfterFire s x y := by
  rw [(slot_after_fire h y).2, HeldAfterFire]
  split
  · next hlast => simp [hlast]
  · next hmore => simp [hmore]

/-- The fire leaves the owner of a line, or clears it where the owner fires its last. -/
theorem owner_after_fire (h : FiresItself s m x kind fresh) (l : LineNo) :
    (m.line l).owner = (s.line l).owner ∨
      ((m.line l).owner = none ∧ (s.line l).owner = some x ∧ LastFire (s.slot x)) := by
  obtain ⟨-, -, -, -, -, hline, -⟩ := h
  have hact : ∀ (c : SlotConfig) (l : Line), (acted c.action c.width fresh l).owner = l.owner := fun c l => by
    cases c.action <;> rfl
  rw [hline l]
  split
  · split
    · next hl =>
      simp only [releasedBy]
      split
      · next howner => exact .inr ⟨rfl, (hact _ _).symm.trans howner.1, hl⟩
      · exact .inl (hact _ _)
    · exact .inl (hact _ _)
  · exact .inl rfl

theorem granted_after_fire (h : FiresItself s m x kind fresh) (y : SlotNo) :
    LineGranted m y ↔ GrantedAfterFire s x y := by
  have hconfig := fun z => (slot_after_fire h z).1
  have hstate : ∀ z, ((m.slot z).run.state = .armed ∨ (m.slot z).run.state = .waiting) ↔
      ¬ (z = x ∧ LastFire (s.slot x)) ∧ ((s.slot z).run.state = .armed ∨ (s.slot z).run.state = .waiting) := fun z => by
    rw [(slot_after_fire h z).2]
    split
    · next hlast => simp [hlast]
    · next hmore => simp [hmore]
  simp only [LineGranted, GrantedAfterFire, HoldingOwner, hconfig, hstate]
  refine or_congr Iff.rfl ?_
  rcases owner_after_fire h (s.slot y).config.line with ho | ⟨hnone, hx, hl⟩
  · rw [ho]
    cases hs : (s.line (s.slot y).config.line).owner with
    | none => simp
    | some o => simp only [Option.some.injEq, exists_eq_left', forall_eq']; tauto
  · simp [hnone, hx, hl]

/-- A successor passes its chain checks after the fire as the statements say it in terms of the state before it. -/
theorem chainPasses_after_fire (h : FiresItself s m x kind fresh) (y : SlotNo) :
    ChainPasses m y ↔ HeldAfterFire s x y ∧ ¬ BadChainOffset (s.slot y).config ∧ GrantedAfterFire s x y := by
  rw [chainPasses_iff, held_after_fire h, granted_after_fire h, (slot_after_fire h y).1]

theorem chainRefused_after_fire (h : FiresItself s m x kind fresh) (y : SlotNo) (cause : ChainCause) :
    ChainRefused m y cause ↔ (¬ HeldAfterFire s x y ∧ cause = .notHeld) ∨
      (HeldAfterFire s x y ∧ BadChainOffset (s.slot y).config ∧ cause = .badOffset) ∨
      (HeldAfterFire s x y ∧ ¬ BadChainOffset (s.slot y).config ∧ ¬ GrantedAfterFire s x y ∧ cause = .lineBusy) := by
  rw [ChainRefused, ne_eq, held_after_fire h, granted_after_fire h, (slot_after_fire h y).1]

end

end Sys2Proof.Machine

namespace Sys2Proof.Proofs

open Sys2Proof.Machine Sys2Proof.Claims

/-! ## The statements -/

/-- Settles O7, by the run state of the timebase: an advance that reaches no entry fires an empty run. -/
theorem advanceCountsWhileRunning : Obligations.AdvanceCountsWhileRunning := by
  intro s a hr
  refine ⟨exec_advance_held hr, fun hrun hnone => ?_⟩
  rw [exec_advance_running hr hrun, hnone]
  rfl

/-- Settles O8: the run as the fires of its slots in turn; the one last fire by its own three steps. -/
theorem advanceFiresLastTime : Obligations.AdvanceFiresLastTime := by
  refine ⟨fun s a hr hrun => ⟨_, exec_advance_running hr hrun, fireInTurn_fireRun _ _ _⟩, fun s a x h hl hc => ?_⟩
  obtain ⟨-, -, -, htb⟩ := id h
  obtain ⟨heq, hrun, hlist, hother, hline, hreports⟩ :=
    fire_last (s.withTimebase (Claims.counted s.timebase a)) x .fired (freshOf a) hl hc
  have htb' : ((s.withTimebase (Claims.counted s.timebase a)).slot x).config.timebase = timebaseOf a := htb
  rw [htb'] at hlist hother hreports
  rw [now_withTimebase_counted] at hreports
  exact ⟨_, exec_advance_fires h, heq, hrun, hlist, hother, hline, hreports⟩

/-- Settles O9, by the three steps of the fire. -/
theorem advanceFiresPeriodic : Obligations.AdvanceFiresPeriodic := by
  intro s a x h hl hc
  let s' := s.withTimebase (Claims.counted s.timebase a)
  obtain ⟨-, -, -, htb⟩ := id h
  have hc' : (s'.slot x).config.chainEnable = false := hc
  have hl' : ¬ LastFire (s'.slot x) := hl
  have htb' : (s'.slot x).config.timebase = timebaseOf a := htb
  have hremaining : remainingAfterFire (s.slot x) = if (s.slot x).run.unlimited then 0 else (s.slot x).run.remaining - 1 :=
    if_congr (or_iff_right hl) rfl rfl
  obtain ⟨heq, hrun, -, hlist, hother, hline, hreports⟩ := firesItself_fireOwn s' x .fired (freshOf a)
  rw [htb'] at hlist hother
  simp only [if_neg hl', htb'] at hrun hline
  refine ⟨_, exec_advance_fires h, ?_⟩
  rw [s'.fire_unchained x _ _ hc']
  refine ⟨heq, ?_, hlist hl', hother, hline, ?_⟩
  · rw [now_withTimebase_counted] at hrun
    rw [← hremaining]
    exact hrun
  · rw [hreports, fireReport, htb', now_withTimebase_counted, decide_eq_false hl', ← hremaining]
    rfl

/-- Settles O10: the successor passes its checks on the state that the fire's own steps leave. -/
theorem chainArmsSuccessor : Obligations.ChainArmsSuccessor := by
  rintro s s' a x y h rfl hc rfl hstop hheld hoffset hgranted
  have hown := firesItself_fireOwn (s.withTimebase (Claims.counted s.timebase a)) x .fired (freshOf a)
  have hpass := (chainPasses_after_fire hown (s.slot x).config.successor).2 ⟨hheld, hoffset, hgranted⟩
  have hstep := (s.withTimebase (Claims.counted s.timebase a)).fireOwn_schedStep x .fired (freshOf a)
  have harmed := chainArmed_chainFrom _ (State.chainFaultReport (s.withTimebase (Claims.counted s.timebase a)) x)
    (by rw [hstep.stop]; exact hstop) hpass
  refine ⟨_, _, ?_, hown, harmed, ?_⟩
  · rw [exec_advance_fires h]
    exact congrArg _ (fire_chained (s.withTimebase (Claims.counted s.timebase a)) x _ _ hc)
  · obtain ⟨⟨hrun, -⟩, -⟩ := harmed
    have hconfig := (slot_after_fire hown (s.slot x).config.successor).1
    rw [hrun, if_pos rfl, hconfig, hstep.now]
    exact congrArg (Slot.mk · _) hconfig

/-- Settles O11: the first check that fails on the state that the fire's own steps leave gives the cause. -/
theorem chainFaultIsReported : Obligations.ChainFaultIsReported := by
  rintro s s' a x y cause h rfl hc rfl hstop hcause
  have hown := firesItself_fireOwn (s.withTimebase (Claims.counted s.timebase a)) x .fired (freshOf a)
  have hrefused := (chainRefused_after_fire hown (s.slot x).config.successor cause).2 hcause
  have hstep := (s.withTimebase (Claims.counted s.timebase a)).fireOwn_schedStep x .fired (freshOf a)
  obtain ⟨-, -, -, htb⟩ := id h
  refine ⟨_, hown, ?_⟩
  have hfault := chainFrom_refused _ (State.chainFaultReport (s.withTimebase (Claims.counted s.timebase a)) x)
    (by rw [hstep.stop]; exact hstop) hrefused
  have hfires := fire_chained (s.withTimebase (Claims.counted s.timebase a)) x .fired (freshOf a) hc
  rw [exec_advance_fires h]
  refine congrArg _ (hfires.trans (hfault.trans ?_))
  have htb' : ((s.withTimebase (Claims.counted s.timebase a)).slot x).config.timebase = timebaseOf a := htb
  rw [chainFaultReport_eq, chainFaultReport, fireReport, reportOf, htb', now_withTimebase_counted, reportOf, htb']
  rfl

/-- Settles O12, by the CNT level before the sample and the run state of TB1. -/
theorem cntSample : Obligations.CntSample := by
  intro s v hr
  refine ⟨fun hquiet => ?_, fun hlow hv hrun => ?_⟩
  · by_cases hedge : s.timebase.cntLevel = .low ∧ v = .high
    · obtain ⟨hlow, rfl⟩ := id hedge
      rw [exec_cntEdge_rise hr hlow, exec_advance_held (a := .tb1) hr (hquiet.resolve_left (not_not.2 hedge))]
      rfl
    · rw [exec_cntEdge _ hr, State.cntSample, if_neg hedge]
  · subst hv
    refine ⟨exec_cntEdge_rise hr hlow, fun hnone => ?_⟩
    rw [exec_cntEdge_rise hr hlow, exec_advance_running (a := .tb1) hr hrun, hnone]
    rfl

end Sys2Proof.Proofs
end

section
/-! PROOFS. Trigger edges (chapter 7) and the machine stop (chapter 11): a sample of a trigger pin by its three cases, the
bind of the head of a wait list, the assertion of STOP#, and the statements about them. -/

namespace Sys2Proof.Machine

open Sys2Proof.Claims

/-! ## Changes to one slot and its line, one after another -/

section

variable {s m t : State} {x : SlotNo}

theorem config_of_onlyItsRun {r : RunPart} (h : OnlyItsRun s m x r) (y : SlotNo) :
    (m.slot y).config = (s.slot y).config := by
  rw [h y]
  split
  · next hy => subst hy; rfl
  · rfl

theorem onlyItsRun_trans {r r' : RunPart} (h : OnlyItsRun s m x r) (h' : OnlyItsRun m t x r') : OnlyItsRun s t x r' := by
  intro y
  rw [h' y]
  by_cases hy : y = x
  · rw [if_pos hy, if_pos hy, h x, if_pos rfl]
  · rw [if_neg hy, if_neg hy, h y, if_neg hy]

theorem onlyItsLine_same (h : ∀ l, m.line l = s.line l) : OnlyItsLine s m x fun l => l := fun l => by
  rw [h l, ite_self]

theorem onlyItsLine_trans {f g : Line → Line} (hc : (m.slot x).config = (s.slot x).config) (h : OnlyItsLine s m x f)
    (h' : OnlyItsLine m t x g) : OnlyItsLine s t x fun l => g (f l) := by
  intro l
  rw [h' l, hc]
  by_cases hl : (s.slot x).config.action ≠ .none ∧ l = (s.slot x).config.line
  · rw [if_pos hl, if_pos hl, h l, if_pos hl]
  · rw [if_neg hl, if_neg hl, h l, if_neg hl]

/-- The report of a last fire reads of the state the slot's configuration only. -/
theorem lastFireReport_congr {l l' : Line} (hc : (m.slot x).config = (s.slot x).config)
    (hl : l'.countdown = l.countdown) (kind : ReportKind) (due now : Word) (unlimited : Bool) :
    lastFireReport m x kind due now unlimited l' = lastFireReport s x kind due now unlimited l := by
  simp only [lastFireReport, reportOf, hc, hl]

end

/-! ## A sample of a trigger pin (R101 to R103) -/

section

variable {s : State} {n : TrigNo} {v : Level}

theorem qualifies_iff (c : Channel) (v : Level) : c.select.qualifies v = true ↔ Qualified c v := by
  rw [Qualified]
  cases c.select <;> cases v <;> decide

/-- A sample that is no edge, or no qualified one, moves the pin level only (R101, R102). -/
theorem trigSample_unqualified (h : (s.trig n).pin = v ∨ ¬ Qualified (s.trig n) v) :
    s.trigSample n v = s.setTrig n { s.trig n with pin := v } := by
  rw [← qualifies_iff] at h
  exact if_neg (by tauto)

theorem trigSample_qualified (hpin : (s.trig n).pin ≠ v) (hq : Qualified (s.trig n) v) :
    s.trigSample n v = (s.setTrig n { s.trig n with pin := v }).qualifiedEdge n :=
  if_pos ⟨hpin, (qualifies_iff _ _).2 hq⟩

/-- A qualified edge inside a lockout window is counted (R103). -/
theorem trigSample_lockedOut (hpin : (s.trig n).pin ≠ v) (hq : Qualified (s.trig n) v) (hlock : (s.trig n).lockLeft ≠ 0) :
    s.trigSample n v = s.setTrig n { s.trig n with pin := v, bounce := raise255 (s.trig n).bounce } := by
  simp only [trigSample_qualified hpin hq, State.qualifiedEdge, State.trig_setTrig, if_pos hlock, State.setTrig_twice]

/-- An accepted edge opens its window and goes on to the head of the wait list (R103, R105). -/
theorem exec_triggerEdge_accepted (h : EdgeAccepted s n v) :
    exec (.triggerEdge n v) s = .next ((s.setTrig n (acceptedChannel (s.trig n) v)).takeEdge n) := by
  obtain ⟨hr, hpin, hq, hlock⟩ := h
  simp only [exec_triggerEdge _ _ hr, trigSample_qualified hpin hq, State.qualifiedEdge, State.trig_setTrig,
    hlock, ne_eq, not_true_eq_false, if_false, State.setTrig_twice]
  rfl

theorem takeEdge_empty (h : s.list (.wait n) = []) :
    s.takeEdge n = s.postIf (s.trig n).reportUnclaimed (s.unclaimedReport n) := by
  simp only [State.takeEdge, h]

theorem takeEdge_head {x : SlotNo} {rest : List SlotNo} (h : s.list (.wait n) = x :: rest) :
    s.takeEdge n = s.bind n x rest := by
  simp only [State.takeEdge, h]

theorem postIf_eq_withReports (s : State) (b : Bool) (r : Report) :
    s.postIf b r = s.withReports (handed b r s.reports) := by
  cases b <;> rfl

end

/-! ## The bind of the head (R105 to R107) -/

section

variable (s : State) (n : TrigNo) (x : SlotNo) (rest : List SlotNo)

/-- The bind reaches slots, lists and the queue only. -/
theorem boundBy_eq_update : boundBy s n x rest =
    ((s.withSlots (boundBy s n x rest).slots).withSched (boundBy s n x rest).sched).withReports
      (boundBy s n x rest).reports := by
  rw [boundBy, postIf_eq_withReports]
  rfl

/-- The state in which an accepted edge on TRG`n` finds slot `x` at the head of the wait list and has bound it. -/
abbrev edgeBound (v : Level) : State := boundBy (s.setTrig n (acceptedChannel (s.trig n) v)) n x rest

variable {s n x rest} {v : Level}

theorem onlyItsRun_edgeBound : OnlyItsRun s (edgeBound s n x rest v) x
    { (s.slot x).run with
      state := .armed
      bound := none
      due := s.now (s.slot x).config.timebase + (s.slot x).config.offset } := by
  have h := onlyItsRun_boundBy (s.setTrig n (acceptedChannel (s.trig n) v)) n x rest
  rw [State.now_setTrig] at h
  exact h

/-- An offset of 0 makes the capture itself the due point (R107). -/
theorem onlyItsRun_edgeBound_now (h : (s.slot x).config.offset = 0) : OnlyItsRun s (edgeBound s n x rest v) x
    { (s.slot x).run with state := .armed, bound := none, due := s.now (s.slot x).config.timebase } := by
  have hdue : s.now (s.slot x).config.timebase + (s.slot x).config.offset = s.now (s.slot x).config.timebase := by
    rw [h]
    exact BitVec.add_zero _
  rw [← hdue]
  exact onlyItsRun_edgeBound

theorem reports_edgeBound : (edgeBound s n x rest v).reports =
    handed (s.slot x).config.reportEnable (boundReport s x n) s.reports := by
  rw [edgeBound, reports_boundBy, boundReport, reportOf, State.now_setTrig, boundReport, reportOf]
  rfl

theorem exec_triggerEdge_binds (h : EdgeAccepted s n v) (hl : s.list (.wait n) = x :: rest) :
    exec (.triggerEdge n v) s = .next
      (if (s.slot x).config.offset = 0 then (edgeBound s n x rest v).fire x .fired false
      else (edgeBound s n x rest v).insertDue (s.slot x).config.timebase x) := by
  rw [exec_triggerEdge_accepted h, takeEdge_head (s := s.setTrig n _) hl, bind_eq]
  rfl

end

/-! ## The assertion of STOP# -/

/-- While STOP# is released its assertion is taken (R169). -/
theorem assertStop_high {s : State} (h : s.stop.level = .high) :
    s.assertStop = s.giveUp.withStop { level := .low, qualCount := 0, stopl := true } := by
  rw [State.assertStop, (stopAsserted_eq_false_iff s).2 h, if_neg Bool.false_ne_true]

end Sys2Proof.Machine

namespace Sys2Proof.Proofs

open Sys2Proof.Machine Sys2Proof.Claims

/-! ## The statements -/

/-- Settles O13, by the three cases of a sample and the empty wait list. -/
theorem triggerEdgeIgnoredOrUnclaimed : Obligations.TriggerEdgeIgnoredOrUnclaimed := by
  refine ⟨fun s n v hr => ⟨fun h => ?_, fun hpin hq hlock => ?_⟩, fun s n v h hempty => ?_⟩
  · rw [exec_triggerEdge n v hr, trigSample_unqualified h]
  · rw [exec_triggerEdge n v hr, trigSample_lockedOut hpin hq hlock, raise255]
  · rw [exec_triggerEdge_accepted h, takeEdge_empty (s := s.setTrig n _) hempty, postIf_eq_withReports, State.trig_setTrig]
    rfl

/-- Settles O14: the bind and then the insertion. -/
theorem triggerEdgeBindsHead : Obligations.TriggerEdgeBindsHead := by
  intro s n v x rest h hl hoffset
  refine ⟨_, exec_triggerEdge_binds h hl, ?_⟩
  rw [if_neg hoffset]
  have hdist : ((edgeBound s n x rest v).insertDue (s.slot x).config.timebase x).distanceOn (s.slot x).config.timebase =
      (edgeBound s n x rest v).distanceOn (s.slot x).config.timebase := by
    funext y; simp only [State.distanceOn, State.now_insertDue, State.slot_insertDue]
  refine ⟨?_, onlyItsRun_edgeBound, ?_, ?_, fun r hr hdue => ?_, reports_edgeBound⟩
  · exact congrArg (State.setList · _ _) (boundBy_eq_update _ n x rest)
  · rw [State.list_insertDue_ne _ _ (by simp), list_boundBy]
  · rw [hdist, State.list_insertDue, list_boundBy_ne _ _ _ _ (by simp)]
    exact insertedByDistance_insert _ _ _
  · rw [State.list_insertDue_ne _ _ hdue, list_boundBy_ne _ _ _ _ hr]
    rfl

/-- Settles O15: the bind and then the fire; the one-shot by the frame of a last fire. -/
theorem triggerEdgeFiresAtOnce : Obligations.TriggerEdgeFiresAtOnce := by
  refine ⟨fun s n v x rest h hl hoffset => ?_, fun s n v x rest h hl hoffset hperiod hchain hx => ?_⟩
  · refine ⟨edgeBound s n x rest v, _, exec_triggerEdge_binds h hl, boundBy_eq_update _ n x rest,
      onlyItsRun_edgeBound_now hoffset, list_boundBy _ _ _ _, fun r hr => list_boundBy_ne _ _ _ _ hr, reports_edgeBound,
      ?_⟩
    rw [if_pos hoffset]
    exact fires_fire _ x .fired false
  · have hrun := onlyItsRun_edgeBound_now (n := n) (rest := rest) (v := v) hoffset
    have hconfig := config_of_onlyItsRun hrun x
    have hslot := hrun x
    rw [if_pos rfl] at hslot
    obtain ⟨-, hheld, hlist, hothers, hline, hreports⟩ := fire_last (edgeBound s n x rest v) x .fired false
      (.inl (hconfig ▸ hperiod)) (hconfig ▸ hchain)
    rw [hconfig] at hlist hothers hline hreports
    refine ⟨_, exec_triggerEdge_binds h hl, ?_⟩
    rw [if_pos hoffset]
    refine ⟨((boundBy_schedStep _ n x rest).trans (State.fire_schedStep _ x .fired false)).eq_update,
      onlyItsRun_trans hrun hheld, ?_, fun r hr => ?_,
      onlyItsLine_trans (f := fun l => l) hconfig (onlyItsLine_same fun l => line_boundBy _ n x rest l) hline, ?_⟩
    · rw [hothers _ (by simp), list_boundBy]
    · by_cases hdue : r = .due (s.slot x).config.timebase
      · rw [hdue, hlist, list_boundBy_ne _ _ _ _ (by simp)]
        exact List.erase_of_not_mem hx
      · rw [hothers r hdue, list_boundBy_ne _ _ _ _ hr]
        rfl
    · rw [hreports, reports_edgeBound, hslot, lastFireReport_congr hconfig (l := s.line (s.slot x).config.line),
        (boundBy_schedStep _ n x rest).now, State.now_setTrig]
      rw [line_boundBy]
      rfl

/-- Settles O16: the frame of a scheduling operation, and what the disarm of the six lists and the release of every line
do. -/
theorem stopAssertionGivesUpEverything : Obligations.StopAssertionGivesUpEverything := by
  intro s hr hhigh hlists hslots
  obtain ⟨hslot, hlist, hline, hreports⟩ := giveUp_effect s hlists hslots
  have hframe := s.giveUp_schedStep.eq_update
  have hexec := exec_stopAssertion hr
  rw [assertStop_high hhigh] at hexec
  generalize s.giveUp = u at hslot hlist hline hreports hframe hexec
  refine ⟨_, hexec, congrArg (State.withStop · _) hframe, hlist, hslot, fun l => ?_, ?_⟩
  · rw [line_withStop, hline, Line.stopped, Line.safeLogical, logicalFor_eq_safeState, atSafeLevel]
  · rw [State.reports_withStop, hreports]
    simp only [stopOrder, List.flatMap_cons, List.flatMap_nil, List.append_nil, List.append_assoc]

/-- Settles O17. -/
theorem stopReleaseChangesLevelOnly : Obligations.StopReleaseChangesLevelOnly := fun _ hr => exec_stopRelease hr

/-- Settles O18, by the level that the sample finds and the count of samples before it. -/
theorem stopSampleQualifies : Obligations.StopSampleQualifies := by
  intro s v hr
  refine ⟨fun hv => ?_, fun hv hcount => ?_, fun hv hcount => ?_, fun hlow => ?_⟩
  · simp only [exec_stopSample v hr, State.stopSampled, if_pos hv]
  · simp only [exec_stopSample v hr, State.stopSampled, if_neg hv, if_pos hcount]
  · simp only [exec_stopSample v hr, State.stopSampled, if_neg hv, if_neg (Nat.not_lt.2 hcount)]
    cases v with
    | low => exact (exec_stopAssertion hr).symm
    | high => exact (exec_stopRelease hr).symm
  · rw [exec_stopAssertion hr, State.assertStop, State.stopAsserted, hlow]
    rfl

end Sys2Proof.Proofs
end

section
/-! PROOFS. The write image (chapter 3, Tables 3-3, 12-4 and 12-5): which images the format checks pass, what a passing
image is read back as, the commit of a completed image, and the statements about them. -/

namespace Sys2Proof.Machine

open Sys2Proof.Claims

/-! ## The numbers of an image -/

theorem actionOf_code (a : Action) : actionOf (actionCode a) = some a := by cases a <;> rfl

/-- Codes 5 and above name no action (R18). -/
theorem actionOf_eq_none_iff : ∀ code : Nat, actionOf code = none ↔ 5 ≤ code
  | 0 | 1 | 2 | 3 | 4 => by decide
  | n + 5 => by simp [actionOf]

/-- A code names the action whose code it is. -/
theorem code_of_actionOf {code : Nat} {a : Action} (h : actionOf code = some a) : actionCode a = code := by
  unfold actionOf at h
  split at h <;> cases h <;> rfl

theorem lineOf_eq_none_iff (b : Byte) : lineOf b = none ↔ 16 ≤ b.toNat := by
  rw [lineOf]
  split <;> simp <;> omega

theorem slotOf_eq_none_iff (b : Byte) : slotOf b = none ↔ 128 ≤ b.toNat := by
  rw [slotOf]
  split <;> simp <;> omega

theorem halfOf_eq_zero_iff (a b : Byte) : halfOf a b = 0 ↔ a = 0 ∧ b = 0 := by
  simp only [← BitVec.toNat_inj, halfOf_toNat, BitVec.ofNat_eq_ofNat, BitVec.toNat_ofNat]
  omega

theorem halfOf_of_le16 {img : List Byte} {i : Nat} {w : Half} (h : le16 img i = w.toNat) :
    halfOf (img.getD i 0) (img.getD (i + 1) 0) = w :=
  BitVec.eq_of_toNat_eq ((halfOf_toNat _ _).trans h)

theorem wordOf_of_le32 {img : List Byte} {i : Nat} {w : Word} (h : le32 img i = w.toNat) :
    wordOf (img.getD i 0) (img.getD (i + 1) 0) (img.getD (i + 2) 0) (img.getD (i + 3) 0) = w := by
  refine BitVec.eq_of_toNat_eq ((wordOf_toNat _ _ _ _).trans ?_)
  rw [← h, le32, le16, le16]
  ring

/-! ## The format checks (R38) -/

/-- The width check: PULSE with width 0. -/
theorem badWidth_iff {img : List Byte} {a : Action} (h : actionOf ((img.getD 1 0).extractLsb' 1 3).toNat = some a) :
    (a = .pulse ∧ halfOf (img.getD 14 0) (img.getD 15 0) = 0) ↔
      ((img.getD 1 0).extractLsb' 1 3).toNat = 3 ∧ img.getD 14 0 = 0 ∧ img.getD 15 0 = 0 := by
  rw [halfOf_eq_zero_iff, ← code_of_actionOf h]
  refine and_congr_left' ?_
  cases a <;> decide

/-- The period check: the top byte below 80h. -/
theorem periodOk_iff (a b c d : Byte) : (wordOf a b c d).toNat < 2 ^ 31 ↔ d.toNat < 128 := by
  rw [wordOf_toNat]
  omega

/-- An image is read as none exactly where it fails a check of Table 3-3. -/
theorem imageConfig_eq_none_iff (img : List Byte) : imageConfig img = none ↔ BadFormat img := by
  simp only [imageConfig, BadFormat]
  split
  · next a l y ha hl hy =>
    have haction : ¬ 5 ≤ ((img.getD 1 0).extractLsb' 1 3).toNat := by rw [← actionOf_eq_none_iff, ha]; nofun
    have hline : ¬ 16 ≤ (img.getD 2 0).toNat := by rw [← lineOf_eq_none_iff, hl]; nofun
    have hsuccessor : ¬ 128 ≤ (img.getD 3 0).toNat := by rw [← slotOf_eq_none_iff, hy]; nofun
    simp only [badWidth_iff ha, periodOk_iff, haction, hline, hsuccessor, false_or, ← not_lt (b := 128)]
    split
    · next hok => exact iff_of_false nofun (by tauto)
    · next hbad => exact iff_of_true rfl (by tauto)
  · next hnone =>
    simp only [true_iff, ← actionOf_eq_none_iff, ← lineOf_eq_none_iff, ← slotOf_eq_none_iff]
    cases ha : actionOf ((img.getD 1 0).extractLsb' 1 3).toNat with
    | none => exact .inl rfl
    | some a =>
      cases hl : lineOf (img.getD 2 0) with
      | none => exact .inr (.inl rfl)
      | some l =>
        cases hy : slotOf (img.getD 3 0) with
        | none => exact .inr (.inr (.inl rfl))
        | some y => exact (hnone a l y ha hl hy).elim

/-- An image that spells a configuration a commit can store is read back as that configuration. -/
theorem imageConfig_spells {img : List Byte} {c : SlotConfig} (hok : FormatOk c) (h : Spells img c) :
    imageConfig img = some c := by
  obtain ⟨-, htag, htimebase, haction, hpolicy, hreport, hchain, hline, hsuccessor, hoffset, hperiod, hrepeats,
    hwidth⟩ := h
  obtain ⟨hperiodOk, hwidthOk⟩ := hok
  have ha : actionOf ((img.getD 1 0).extractLsb' 1 3).toNat = some c.action := haction ▸ actionOf_code c.action
  simp only [imageConfig, ha, lineOf_some hline, slotOf_some hsuccessor, wordOf_of_le32 hoffset, wordOf_of_le32 hperiod,
    halfOf_of_le16 hrepeats, halfOf_of_le16 hwidth, htag, htimebase, hpolicy, hreport, hchain]
  rw [if_pos ⟨hperiodOk, fun ⟨hpulse, hzero⟩ => hwidthOk hpulse hzero⟩]
  have htb : (if decide (c.timebase = .tb1) = true then Timebase.tb1 else .tb0) = c.timebase := by
    cases c.timebase <;> rfl
  have hlate : (if decide (c.latePolicy = .drop) = true then LatePolicy.drop else .fire) = c.latePolicy := by
    cases c.latePolicy <;> rfl
  rw [htb, hlate]

/-! ## The commit of a completed image (R27, R38, R39) -/

section

variable {s : State}

theorem recordWrite_completes (b : Byte) (h : s.record.writeStaging.length = 15) :
    s.recordWrite b = s.completeImage (s.record.writeStaging ++ [b]) :=
  if_neg (by omega)

theorem completeImage_none {img : List Byte} (h : imageConfig img = none) :
    s.completeImage img = s.withRecord (afterImage s.record .refusedFormat) := by
  simp only [State.completeImage, h]
  rfl

theorem completeImage_some {img : List Byte} {c : SlotConfig} (h : imageConfig img = some c) :
    s.completeImage img =
      (s.commit s.record.writeCursor c).1.withRecord (afterImage s.record (s.commit s.record.writeCursor c).2) := by
  simp only [State.completeImage, h]
  rfl

theorem commit_refused {x : SlotNo} (c : SlotConfig)
    (h : (s.slot x).run.state = .armed ∨ (s.slot x).run.state = .waiting) : s.commit x c = (s, .refusedState) := by
  rcases h with h | h <;> simp only [State.commit, h]

theorem commit_free {x : SlotNo} (c : SlotConfig) (h : (s.slot x).run.state = .free) :
    s.commit x c = (s.setSlot x { config := c, run := heldRun }, .accepted) := by
  simp only [State.commit, h]
  rfl

theorem commit_held {x : SlotNo} (c : SlotConfig) (h : (s.slot x).run.state = .held) :
    s.commit x c = (s.setSlot x { s.slot x with config := c }, .accepted) := by
  simp only [State.commit, h]

end

end Sys2Proof.Machine

namespace Sys2Proof.Proofs

open Sys2Proof.Machine Sys2Proof.Claims

/-! ## The statements -/

/-- Settles O20, by what the image is read as and the state of the slot under the write cursor. -/
theorem recordPortWriteCompletesImage : Obligations.RecordPortWriteCompletesImage := by
  intro s b hr hlen
  rw [exec_recordPortWrite b hr, recordWrite_completes b hlen]
  refine ⟨fun hbad => ?_, fun hgood hstate => ?_, fun c hok hspells => ⟨fun hfree => ?_, fun hheld => ?_⟩⟩
  · rw [completeImage_none ((imageConfig_eq_none_iff _).2 hbad)]
  · obtain ⟨c, hc⟩ := Option.ne_none_iff_exists'.1 (mt (imageConfig_eq_none_iff _).1 hgood)
    rw [completeImage_some hc, commit_refused c hstate]
  · rw [completeImage_some (imageConfig_spells hok hspells), commit_free c hfree]
  · rw [completeImage_some (imageConfig_spells hok hspells), commit_held c hheld]

/-- Settles O56: the image of a configuration by field, and the checks by what an image is read as. -/
theorem writeImageRoundTrip : Obligations.WriteImageRoundTrip := by
  refine ⟨fun c => ⟨⟨rfl, ?_⟩, (getLsbD_modeByte c 7).trans (by simp)⟩, fun c img hok hspells => ⟨fun hbad => ?_,
    imageConfig_spells hok hspells⟩, fun img => (imageConfig_eq_none_iff img).2⟩
  · have hfields := configFields_configImage c []
    rwa [List.append_nil] at hfields
  · rw [← imageConfig_eq_none_iff, imageConfig_spells hok hspells] at hbad
    cases hbad

end Sys2Proof.Proofs
end

section
/-! PROOFS. The transfer port (9.5 to 9.7): the entries of a block by field (Tables 12-7 to 12-9), what a read of TRANSFER PORT
returns and what it leaves, a write in a block of ARM BATCH, and the statements about them. -/

namespace Sys2Proof.Machine

open Sys2Proof.Claims

/-! ## The entries by field (Tables 12-7 to 12-9) -/

theorem ReportKind.code_eq (k : ReportKind) : k.code.toNat = kindCode k := by cases k <;> rfl

theorem ChainCause.code_lt (c : ChainCause) : c.code < 2 ^ 2 := by cases c <;> decide

theorem ChainCause.code_eq (c : ChainCause) : c.code = causeCode c := by cases c <;> rfl

/-- Bit `j` of the flags byte belongs to one flag of Table 12-8, and bit 7 to none. -/
theorem getLsbD_flagsByte (f : ReportFlags) (j : Nat) : (flagsByte f).getLsbD j =
    (decide (0 = j) && decide (f.timebase = .tb1) || decide (1 = j) && f.overlap || decide (2 = j) && f.final ||
      decide (3 = j) && f.noSlot || decide (4 = j) && f.unlimited ||
      decide (5 ≤ j ∧ j < 7) && f.cause.code.testBit (j - 5)) := by
  simp only [flagsByte, BitVec.getLsbD_or, getLsbD_fieldAt f.cause.code_lt (i := 5) (by omega),
    getLsbD_bitAt (i := 0) (by omega), getLsbD_bitAt (i := 1) (by omega), getLsbD_bitAt (i := 2) (by omega),
    getLsbD_bitAt (i := 3) (by omega), getLsbD_bitAt (i := 4) (by omega)]

theorem extract_flagsByte_cause (f : ReportFlags) : ((flagsByte f).extractLsb' 5 2).toNat = causeCode f.cause := by
  rw [← ChainCause.code_eq]
  refine toNat_extractLsb'_eq f.cause.code_lt fun j hj => ?_
  simp [getLsbD_flagsByte, show ¬ 0 = 5 + j by omega, show ¬ 1 = 5 + j by omega, show ¬ 2 = 5 + j by omega,
    show ¬ 3 = 5 + j by omega, show ¬ 4 = 5 + j by omega, show 5 + j < 7 by omega]

/-- The sixteen bytes of a report hold its fields. -/
theorem reportImageOf_reportImage (r : Report) : ReportImageOf (reportImage r) r := by
  refine ⟨rfl, r.kind.code_eq, (getLsbD_flagsByte _ 0).trans (by simp), (getLsbD_flagsByte _ 1).trans (by simp),
    (getLsbD_flagsByte _ 2).trans (by simp), (getLsbD_flagsByte _ 3).trans (by simp),
    (getLsbD_flagsByte _ 4).trans (by simp), extract_flagsByte_cause _, (getLsbD_flagsByte _ 7).trans (by simp),
    fun h => ?_, fun x h => ?_, rfl, le32_bytes r.value rfl rfl rfl rfl, le32_bytes r.at_ rfl rfl rfl rfl,
    le16_bytes r.remaining rfl rfl, rfl, fun h => ?_, fun x h => ?_, fun n h => ?_⟩
  · exact congrArg ownerByte h
  · exact (congrArg (BitVec.toNat <| ownerByte ·) h).trans (toNat_ownerByte_some x)
  · exact congrArg auxByte h
  · exact (congrArg (BitVec.toNat <| auxByte ·) h).trans (toNat_byteOfFin (by decide) x)
  · exact (congrArg (BitVec.toNat <| auxByte ·) h).trans (toNat_byteOfFin (by decide) n)

/-- The flags byte of a due-list entry (Table 12-9). -/
def dueFlagsByte (e : DueEntry) : Byte :=
  bitAt 0 (decide (e.timebase = .tb1)) ||| bitAt 1 e.periodic ||| bitAt 2 e.unlimited

theorem getD_dueImage_flags (e : DueEntry) : (dueImage e).getD 1 0 = dueFlagsByte e := rfl

theorem getLsbD_dueFlagsByte (e : DueEntry) (j : Nat) : (dueFlagsByte e).getLsbD j =
    (decide (0 = j) && decide (e.timebase = .tb1) || decide (1 = j) && e.periodic || decide (2 = j) && e.unlimited) := by
  simp only [dueFlagsByte, BitVec.getLsbD_or, getLsbD_bitAt (i := 0) (by omega), getLsbD_bitAt (i := 1) (by omega),
    getLsbD_bitAt (i := 2) (by omega)]

theorem extract_dueFlagsByte_unassigned (e : DueEntry) : (dueFlagsByte e).extractLsb' 3 5 = 0 := by
  refine BitVec.eq_of_toNat_eq (toNat_extractLsb'_eq (by decide) fun j hj => ?_)
  simp [getLsbD_dueFlagsByte, show ¬ 0 = 3 + j by omega, show ¬ 1 = 3 + j by omega, show ¬ 2 = 3 + j by omega]

/-- The eight bytes of a due-list entry hold its fields. -/
theorem dueImageOf_dueImage (e : DueEntry) : DueImageOf (dueImage e) e :=
  ⟨rfl, toNat_byteOfFin (by decide) e.slot, (getLsbD_dueFlagsByte e 0).trans (by simp),
    (getLsbD_dueFlagsByte e 1).trans (by simp), (getLsbD_dueFlagsByte e 2).trans (by simp),
    extract_dueFlagsByte_unassigned e, le32_bytes e.due rfl rfl rfl rfl, le16_bytes e.remaining rfl rfl⟩

/-- Byte `i` of a run of entries of `k` bytes each is a byte of entry `i / k`. -/
theorem getD_flatMap_entry {α β : Type} {f : α → List β} {k : Nat} (hk : 0 < k) (hf : ∀ a, (f a).length = k) (d : β) :
    ∀ (es : List α) (i : Nat) (r : α), es[i / k]? = some r → (es.flatMap f).getD i d = (f r).getD (i % k) d
  | [], _, _, h => by simp at h
  | e :: es, i, r, h => by
    rw [List.flatMap_cons]
    by_cases hi : i < k
    · rw [Nat.div_eq_of_lt hi] at h
      cases h
      rw [List.getD_append _ _ _ _ (by rwa [hf]), Nat.mod_eq_of_lt hi]
    · have hik : k ≤ i := not_lt.1 hi
      rw [Nat.div_eq_sub_div hk hik, List.getElem?_cons_succ] at h
      rw [List.getD_append_right _ _ _ _ (by rwa [hf]), hf, getD_flatMap_entry hk hf d es _ r h,
        Nat.mod_eq_sub_mod hik]

/-! ## A read of TRANSFER PORT (R138) -/

section

variable {s : State}

theorem command_inProgress {b : Byte} {p : Params} (h : InProgress s b p) : s.engine.command = commandOf b := by
  rw [Engine.command, h, Option.bind_some]

theorem reading_reports {p : Params} (ht : s.engine.phase = .transfer) (h : InProgress s 0x20 p) :
    s.engine.reading = true := decide_eq_true ⟨ht, .inl (command_inProgress h)⟩

theorem reading_dues {p : Params} (ht : s.engine.phase = .transfer) (h : InProgress s 0x22 p) :
    s.engine.reading = true := decide_eq_true ⟨ht, .inr (command_inProgress h)⟩

theorem transferByte_reading (h : s.engine.reading = true) :
    s.transferByte = s.engine.buffer.bytes.getD s.engine.bytePos 0 := if_pos h

theorem transferByte_outside (h : s.engine.reading = false) : s.transferByte = 0 :=
  if_neg (by rw [h]; exact Bool.false_ne_true)

theorem transferWrite_outside (b : Byte) (h : s.engine.writing = false) : s.transferWrite b = s :=
  if_neg (by rw [h]; exact Bool.false_ne_true)

theorem lower_of_ne_zero {n : Nat} {x : BitVec n} (h : x ≠ 0) : lower x = x - 1 := if_neg h

/-- A read inside an entry only raises the position. -/
theorem transferRead_inside (hread : s.engine.reading = true)
    (hmid : (s.engine.bytePos + 1) % s.engine.entryBytes ≠ 0)
    (hmore : s.engine.bytePos + 1 < s.engine.entryBytes * s.engine.blockLength) :
    s.transferRead = s.withEngine { s.engine with bytePos := s.engine.bytePos + 1 } := by
  rw [transferRead_reading s hread, byteTaken, if_neg hmid, if_neg (by omega)]

/-- The read of an entry's last byte delivers the entry, and goes on behind it. -/
theorem transferRead_delivers (hread : s.engine.reading = true)
    (hlast : (s.engine.bytePos + 1) % s.engine.entryBytes = 0) :
    s.transferRead = s.deliver.withEngine
      (if s.engine.entryBytes * s.engine.blockLength ≤ s.engine.bytePos + 1 then s.deliver.engine.endBlock
        else { s.deliver.engine with bytePos := s.engine.bytePos + 1 }) := by
  rw [transferRead_reading s hread, byteTaken, if_pos hlast]

end

end Sys2Proof.Machine

namespace Sys2Proof.Proofs

open Sys2Proof.Machine Sys2Proof.Claims

/-! ## The statements -/

/-- Settles O24: neither side of the port is open. -/
theorem transferPortOutsideItsBlock : Obligations.TransferPortOutsideItsBlock := by
  intro s b p hr
  have hread : s.engine.reading = false → exec .transferPortRead s = .next (s.withReadData (some 0)) := fun h => by
    rw [exec_transferPortRead hr, transferRead_outside s h, transferByte_outside h]
  have hwrite : s.engine.writing = false → exec (.transferPortWrite b) s = .next s := fun h => by
    rw [exec_transferPortWrite b hr, transferWrite_outside b h]
  refine ⟨fun hp => hread (decide_eq_false fun h => hp h.1), fun hp => hwrite (decide_eq_false fun h => hp h.1),
    fun hp => hread (decide_eq_false fun h => ?_), fun hp => hwrite (decide_eq_false fun h => ?_)⟩
  · have hcommand : s.engine.command = some .armBatch := command_inProgress hp
    simp [hcommand] at h
  · have hcommand : s.engine.command = some .readReports ∨ s.engine.command = some .readDueList :=
      hp.imp command_inProgress command_inProgress
    rcases hcommand with hc | hc <;> simp [hc] at h

/-- Settles O25: the byte by the entry it belongs to, the rest by whether it is the entry's last. -/
theorem transferPortReadReports : Obligations.TransferPortReadReports := by
  intro s p es r hr ht hp hb hlen hentry hremain
  have hread := reading_reports ht hp
  have hbytes : s.engine.entryBytes = 16 := if_pos (command_inProgress hp)
  have hpos : s.engine.bytePos / 16 < s.engine.blockLength := hlen ▸ (List.getElem?_eq_some_iff.1 hentry).1
  have hbyte : s.transferByte = (reportImage r).getD (s.engine.bytePos % 16) 0 := by
    rw [transferByte_reading hread, hb]
    exact getD_flatMap_entry (k := 16) (by decide) (fun _ => rfl) 0 es _ r hentry
  refine ⟨_, reportImage r, exec_transferPortRead hr, reportImageOf_reportImage r, ?_⟩
  rw [hbyte]
  by_cases hlast : (s.engine.bytePos + 1) % 16 = 0
  · rw [transferRead_delivers hread (hbytes ▸ hlast), deliver_reports (command_inProgress hp), lower_of_ne_zero hremain,
      hbytes, ← List.drop_one]
    exact ⟨rfl, fun hmid => absurd hlast hmid, fun _ =>
      ⟨rfl, fun hmore => if_neg (not_le.2 hmore), fun hend => if_pos hend.ge⟩⟩
  · rw [transferRead_inside hread (hbytes ▸ hlast) (by rw [hbytes]; omega)]
    exact ⟨rfl, fun _ => ⟨rfl, rfl⟩, fun h => absurd h hlast⟩

/-- Settles O26, as O25. -/
theorem transferPortReadDueList : Obligations.TransferPortReadDueList := by
  intro s p es r hr ht hp hb hlen hentry hremain
  have hread := reading_dues ht hp
  have hcommand : s.engine.command = some .readDueList := command_inProgress hp
  have hbytes : s.engine.entryBytes = 8 := if_neg (by rw [hcommand]; decide)
  have hpos : s.engine.bytePos / 8 < s.engine.blockLength := hlen ▸ (List.getElem?_eq_some_iff.1 hentry).1
  have hbyte : s.transferByte = (dueImage r).getD (s.engine.bytePos % 8) 0 := by
    rw [transferByte_reading hread, hb]
    exact getD_flatMap_entry (k := 8) (by decide) (fun _ => rfl) 0 es _ r hentry
  refine ⟨_, dueImage r, exec_transferPortRead hr, dueImageOf_dueImage r, ?_⟩
  rw [hbyte]
  by_cases hlast : (s.engine.bytePos + 1) % 8 = 0
  · rw [transferRead_delivers hread (hbytes ▸ hlast), deliver_dues hcommand, lower_of_ne_zero hremain, hbytes]
    exact ⟨rfl, fun hmid => absurd hlast hmid, fun _ =>
      ⟨fun hmore => if_neg (not_le.2 hmore), fun hend => if_pos hend.ge⟩⟩
  · rw [transferRead_inside hread (hbytes ▸ hlast) (by rw [hbytes]; omega)]
    exact ⟨rfl, fun _ => rfl, fun h => absurd h hlast⟩

/-- Settles O27: the k-th byte is the one that makes the position the block length. -/
theorem transferPortWriteSlotNumber : Obligations.TransferPortWriteSlotNumber := by
  intro s p bs b hr ht hp hb
  have hwrite : s.engine.writing = true := decide_eq_true ⟨ht, command_inProgress hp⟩
  refine ⟨fun hmore => ?_, fun hend => ?_⟩
  · rw [exec_transferPortWrite b hr, State.transferWrite, if_pos hwrite, hb, if_neg (by omega)]
    rfl
  · rw [exec_transferPortWrite b hr, State.transferWrite, if_pos hwrite, hb, if_pos (by omega)]
    rfl

end Sys2Proof.Proofs
end

section
/-! PROOFS. The host port (chapter 12) and the acceptance of commands (9.2): STATUS, INT ENABLE, WATERMARK, the register
writes, the soft reset, and the writes at COMMAND, with the statements about them. -/

namespace Sys2Proof.Machine

open Sys2Proof.Claims

/-! ## Bytes of eight flags (Table 12-2, R178) -/

theorem getLsbD_packByte (b0 b1 b2 b3 b4 b5 b6 b7 : Bool) (j : Nat) : (packByte b0 b1 b2 b3 b4 b5 b6 b7).getLsbD j =
    (decide (0 = j) && b0 || decide (1 = j) && b1 || decide (2 = j) && b2 || decide (3 = j) && b3 ||
      decide (4 = j) && b4 || decide (5 = j) && b5 || decide (6 = j) && b6 || decide (7 = j) && b7) := by
  simp only [packByte, BitVec.getLsbD_or, getLsbD_bitAt (i := 0) (by omega), getLsbD_bitAt (i := 1) (by omega),
    getLsbD_bitAt (i := 2) (by omega), getLsbD_bitAt (i := 3) (by omega), getLsbD_bitAt (i := 4) (by omega),
    getLsbD_bitAt (i := 5) (by omega), getLsbD_bitAt (i := 6) (by omega), getLsbD_bitAt (i := 7) (by omega)]

/-- INT ENABLE reads back bits 2 to 0 of what was written (R178). -/
theorem byte_intEnableOf (b : Byte) : (intEnableOf b).byte = b &&& 0x07 := by
  refine BitVec.eq_of_getLsbD_eq fun j hj => ?_
  rw [IntEnable.byte, getLsbD_packByte, BitVec.getLsbD_and]
  interval_cases j <;> simp [intEnableOf]

/-! ## The registers -/

theorem registerByte_status (s : State) : s.registerByte 0x0F = some s.statusByte := rfl

theorem statusCleared_eq (s : State) : s.statusCleared =
    (s.withEngine { s.engine with cmdp := false, rej := false }).withStop
      { s.stop with stopl := if s.stop.level = .low then s.stop.stopl else false } := by
  have hstopl : (s.stop.stopl && s.stopAsserted) = if s.stop.level = .low then s.stop.stopl else false := by
    cases h : s.stop.level <;> simp [State.stopAsserted, h]
  rw [State.statusCleared, hstopl]

/-- INT is asserted by its three sources while RESET# is released (R178). -/
theorem intAsserted_iff {s : State} (hr : s.resetHeld = false) : s.intAsserted = true ↔
    (s.engine.cmdp = true ∧ s.intEnable.cmd = true) ∨
    (s.reports.watermark ≤ s.reports.entries.length ∧ s.intEnable.report = true) ∨
    (s.stop.stopl = true ∧ s.intEnable.stop = true) := by
  have hrepl : s.repl = true ↔ s.reports.watermark ≤ s.reports.entries.length := decide_eq_true_iff
  simp [State.intAsserted, State.intCmd, State.intReport, State.intStop, hrepl, hr, or_assoc]

/-- A write at an address without an owner has no effect (Table 12-1). -/
theorem busWrite_unowned (s : State) {a : Addr} (b : Byte)
    (h : a.toNat = 0x03 ∨ a.toNat = 0x0C ∨ a.toNat = 0x0D ∨ 0x12 ≤ a.toNat) : s.busWrite a b = s := by
  unfold State.busWrite
  split
  case h_16 => rfl
  all_goals omega

/-- The row of a code writes that code at COMMAND (Table 12-11). -/
theorem codeOfRow_rowOfCode (b : Byte) : codeOfRow (rowOfCode b) = some b := by
  unfold rowOfCode
  cases hc : commandOf b with
  | none => rfl
  | some c =>
    rw [code_of_commandOf b c hc]
    cases c <;> rfl

/-! ## The soft reset (R34, R99, R114) -/

theorem Slot.softReset_eq (x : Slot) :
    x.softReset = if x.run.state = .armed ∨ x.run.state = .waiting then { x with run := heldRun } else x := by
  unfold Slot.softReset
  split
  · next h => rw [if_pos (.inl h)]; rfl
  · next h => rw [if_pos (.inr h)]; rfl
  · next h => rw [if_neg (by simp [h])]
  · next h => rw [if_neg (by simp [h])]

theorem Line.softReset_eq (l : Line) : l.softReset = { atSafeLevel l with fresh := false } := by
  rw [Line.softReset, Line.stopped, Line.safeLogical, logicalFor_eq_safeState, atSafeLevel]

/-! ## Acceptance (R129) -/

theorem commandOf_eq_some_iff (b : Byte) (c : Command) : commandOf b = some c ↔ b = c.code :=
  ⟨code_of_commandOf b c, fun h => h ▸ commandOf_code c⟩

/-- The counted commands by their codes. -/
theorem counted_commandOf (b : Byte) : Machine.counted (commandOf b) = decide (b = 0x14 ∨ b = 0x20 ∨ b = 0x22) := by
  simp only [Machine.counted, commandOf_eq_some_iff, Command.code]
  exact decide_eq_decide.2 (by tauto)

/-! ### The checks of a transfer command (R151, R153, R155) -/

section

variable {p : Params}

theorem countInRange {n : Nat} (hlow : 1 ≤ p.count.toNat) (hhigh : p.count.toNat ≤ n) :
    ¬ (p.count = 0 ∨ n < p.count.toNat) := by
  rintro (h | h)
  · rw [h] at hlow
    exact absurd hlow (by decide)
  · omega

theorem transferCheck_batchPasses (hlow : 1 ≤ p.count.toNat) (hhigh : p.count.toNat ≤ 64) :
    transferCheck (some .armBatch) p = .none := if_neg (countInRange hlow hhigh)

theorem transferCheck_reportsPasses (hlow : 1 ≤ p.count.toNat) (hhigh : p.count.toNat ≤ 64) :
    transferCheck (some .readReports) p = .none := if_neg (countInRange hlow hhigh)

theorem transferCheck_dueListPasses (hone : NamesOne p.option) (hlow : 1 ≤ p.count.toNat) (hhigh : p.count.toNat ≤ 128) :
    transferCheck (some .readDueList) p = .none := by
  have hnamed : ¬ (optionOne p.option).isNone = true := by
    rw [Option.isNone_iff_eq_none, optionOne_eq_none_iff]
    exact not_not.2 hone
  rw [transferCheck, if_neg hnamed, if_neg (countInRange hlow hhigh)]

end

/-! ### The snapshot (R69) -/

section

variable {s : State} {b : Byte}

theorem snapshotAt_other (h : commandOf b ≠ some .readDueList) : s.snapshotAt b = [] := by
  unfold State.snapshotAt
  split
  · next hc _ => exact absurd hc h
  · rfl

/-- A READ DUE LIST whose checks pass copies the named due list (R69). -/
theorem snapshotAt_named {tb : Timebase} (hname : Names s.engine.params.option tb)
    (hlow : 1 ≤ s.engine.params.count.toNat) (hhigh : s.engine.params.count.toNat ≤ 128) :
    s.snapshotAt 0x22 = s.dueSnapshot tb := by
  have hone : optionOne s.engine.params.option = some tb := optionOne_eq_some_iff.2 hname
  have hcommand : commandOf 0x22 = some .readDueList := rfl
  simp only [State.snapshotAt, hcommand, hone, if_pos (transferCheck_dueListPasses ⟨tb, hname⟩ hlow hhigh)]

theorem snapshotAt_failed (h : transferCheck (some .readDueList) s.engine.params = .badParam) :
    s.snapshotAt 0x22 = [] := by
  unfold State.snapshotAt
  split
  · rw [if_neg (by rw [h]; decide)]
  · rfl

end

end Sys2Proof.Machine

namespace Sys2Proof.Proofs

open Sys2Proof.Machine Sys2Proof.Claims

/-! ## The statements -/

/-- Settles O28: STATUS by its bits, and what its read clears. -/
theorem statusReadReturnsThenClears : Obligations.StatusReadReturnsThenClears := by
  intro s hr
  refine ⟨s.statusByte, ?_, ?_, ?_, ?_, ?_, ?_, ?_, ?_, ?_, ?_⟩
  · rw [exec_statusRead hr, statusCleared_eq]
  · exact (getLsbD_packByte _ _ _ _ _ _ _ _ 0).trans (by simp [State.busy])
  · exact (getLsbD_packByte _ _ _ _ _ _ _ _ 1).trans (by simp [State.xfer])
  · exact (getLsbD_packByte _ _ _ _ _ _ _ _ 2).trans (by simp)
  · exact (getLsbD_packByte _ _ _ _ _ _ _ _ 3).trans (by simp)
  · exact (getLsbD_packByte _ _ _ _ _ _ _ _ 4).trans (by simp; rfl)
  · exact (getLsbD_packByte _ _ _ _ _ _ _ _ 5).trans (by simp)
  · exact (getLsbD_packByte _ _ _ _ _ _ _ _ 6).trans (by simp; rfl)
  · exact (getLsbD_packByte _ _ _ _ _ _ _ _ 7).trans (by simp)
  · rw [State.quietRead_released _ hr, registerByte_status]

/-- Settles O30, bank by bank; the other blocks by the definition of the soft reset. -/
theorem softReset : Obligations.SoftReset := by
  intro s hr
  refine ⟨_, exec_softReset hr, rfl, fun x => ?_, s.list_softReset, fun l => ?_, s.trig_softReset⟩
  · rw [s.slot_softReset, Slot.softReset_eq]
  · rw [s.line_softReset, Line.softReset_eq]

/-- Settles O31. -/
theorem intEnableAndInt : Obligations.IntEnableAndInt := by
  intro s b hr
  refine ⟨_, exec_intEnable b hr, rfl, ?_, intAsserted_iff (s := s.setIntEnable b) hr⟩
  rw [State.quietRead_released _ (s := s.setIntEnable b) hr, ← byte_intEnableOf]
  rfl

/-- Settles O32, by the ranges of the byte. -/
theorem watermarkIsClamped : Obligations.WatermarkIsClamped := by
  intro s b hr
  have hzero : b = 0 ↔ b.toNat = 0 := BitVec.toNat_inj.symm
  refine ⟨_, watermarkOf b, exec_watermark b hr, rfl, fun h => ?_, fun hlow hhigh => ?_, fun h => ?_,
    State.quietRead_released _ hr, rfl⟩
  · rw [watermarkOf, if_pos (hzero.2 h)]
  · rw [watermarkOf, if_neg (by rw [hzero]; omega), min_eq_left hhigh]
  · rw [watermarkOf, if_neg (by rw [hzero]; omega), min_eq_right (by omega)]

/-- Settles O33: each address by its arm of the write column. -/
theorem registerWrite : Obligations.RegisterWrite := by
  intro s b hr
  have hwrite : ∀ a, exec (.registerWrite a b) s = .next (s.busWrite a b) := fun a => exec_registerWrite a b hr
  have hcommand : exec (rowOfCode b) s = .next (s.writeCommand b) := exec_codeOfRow (codeOfRow_rowOfCode b) hr
  have hcontrol : s.busWrite 0x0F b = s.writeControl b := rfl
  refine ⟨⟨_, hwrite _, rfl, State.quietRead_released _ hr⟩, ⟨_, hwrite _, rfl, State.quietRead_released _ hr⟩,
    ⟨_, hwrite _, rfl, State.quietRead_released _ hr⟩, ⟨_, hwrite _, rfl, State.quietRead_released _ hr⟩,
    ⟨_, hwrite _, rfl, State.quietRead_released _ hr⟩, ⟨_, hwrite _, rfl, State.quietRead_released _ hr⟩,
    ⟨_, hwrite _, rfl, State.quietRead_released _ hr⟩, fun a ha => ?_, fun h0 h1 => ?_, ?_, ?_, ?_, ?_, ?_, ?_,
    fun h0 h1 => ?_, fun h1 => ?_, ?_, ?_⟩
  · rw [hwrite, busWrite_unowned s b ha]
  · rw [hwrite, hcontrol, State.writeControl, if_neg (by rw [h1]; decide), if_neg (by rw [h0]; decide)]
  · exact (hwrite _).trans (exec_recordPortWrite b hr).symm
  · exact (hwrite _).trans (exec_writeCursor b hr).symm
  · exact (hwrite _).trans (exec_readCursor b hr).symm
  · exact (hwrite _).trans (exec_transferPortWrite b hr).symm
  · exact (hwrite _).trans hcommand.symm
  · exact (exec_codeOfRow rfl hr).trans hcommand.symm
  · rw [hwrite, hcontrol, State.writeControl, if_neg (by rw [h1]; decide), if_pos h0, exec_abort hr]
  · rw [hwrite, hcontrol, State.writeControl, if_pos h1, exec_softReset hr]
  · exact (hwrite _).trans (exec_intEnable b hr).symm
  · exact (hwrite _).trans (exec_watermark b hr).symm

/-- Settles O34: the acceptance by its one update, the snapshot by the code and its checks. -/
theorem commandIsAccepted : Obligations.CommandIsAccepted := by
  intro i b s hi h
  obtain ⟨hr, hidle⟩ := h
  refine ⟨s.accepted b, ?_, ?_, ⟨hr, rfl, rfl⟩, fun hb => ?_, fun tb hb hname hlow hhigh => ?_, fun hb hbad => ?_⟩
  · rw [exec_codeOfRow hi hr, writeCommand_idle hidle]
  · rw [State.accepted, Engine.accepted, counted_commandOf]
    simp only [decide_eq_true_eq]
    rfl
  · exact snapshotAt_other fun hc => hb (code_of_commandOf b _ hc)
  · subst hb
    exact snapshotAt_named hname hlow hhigh
  · subst hb
    exact snapshotAt_failed (transferCheck_readDueList hbad)

/-- Settles O35. -/
theorem commandIsRefusedWhileBusy : Obligations.CommandIsRefusedWhileBusy := by
  intro i b s hi hr hbusy
  rw [exec_codeOfRow hi hr, writeCommand_busy hbusy]

end Sys2Proof.Proofs
end

section
/-! PROOFS. The arming commands (4.2, 4.4 and 10.2): the checks and the outcomes of an arm attempt in the words of the
statements, the completion events of ARM, ARM ON TRIGGER, CANCEL and RELEASE, and the statements about them. -/

namespace Sys2Proof.Machine

open Sys2Proof.Claims

/-! ## The checks of Table 4-2 -/

theorem badOffset_absolute (c : SlotConfig) : c.badOffset .absolute = false ↔ ¬ OverlapsItself c := by
  simp only [SlotConfig.badOffset, Bool.false_or, ← Bool.not_eq_true, overlapsItself_iff]

theorem badOffset_relative (c : SlotConfig) :
    c.badOffset .relative = false ↔ c.offset.toNat < 2 ^ 31 ∧ ¬ OverlapsItself c := by
  simp only [SlotConfig.badOffset, Bool.or_eq_false_iff, decide_eq_false_iff_not, not_le, ← overlapsItself_iff,
    Bool.not_eq_true]

/-- The offset check in the mode that OPTION selects. -/
theorem badOffset_modeOf (option : Byte) (c : SlotConfig) :
    c.badOffset (optionMode option) = false ↔ OffsetOk option c := by
  rw [optionMode, OffsetOk, relativeMode]
  split
  · next h => simp only [badOffset_relative, h, true_imp_iff]
  · next h => simp only [badOffset_absolute, Bool.eq_false_of_not_eq_true h, Bool.false_eq_true, false_imp_iff, true_and]

theorem armDue_optionMode (s : State) (option : Byte) (x : SlotNo) :
    s.armDue (optionMode option) x = dueFor s option x := by
  rw [optionMode, dueFor, relativeMode]
  split <;> rfl

section

variable {s : State} {x : SlotNo} {offsetOk : Prop}

/-- The four checks in order: the first that fails has its error code, or the line is claimed. -/
theorem passChecks_spec {mode : ArmMode} (hmode : (s.slot x).config.badOffset mode = false ↔ offsetOk) :
    (∃ o, s.passChecks mode x = .error o ∧ o ≠ .none ∧ ArmFails s x offsetOk o.error) ∨
    (s.passChecks mode x = .ok (s.withClaim x) ∧ s.stop.level = .high ∧ (s.slot x).run.state = .held ∧ offsetOk ∧
      LineGranted s x) := by
  simp only [ArmFails, ← hmode, ← lineFree_iff, Bool.not_eq_false]
  rcases s.passChecks_cases x mode with
    ⟨hstop, h⟩ | ⟨hstop, hstate, h⟩ | ⟨hstop, hstate, hoffset, h⟩ | ⟨hstop, hstate, hoffset, hline, h⟩ |
      ⟨hstop, hstate, hoffset, hline, h⟩
  · exact .inl ⟨_, h, nofun, .inl ⟨hstop, rfl⟩⟩
  · exact .inl ⟨_, h, nofun, .inr (.inl ⟨hstop, hstate, rfl⟩)⟩
  · exact .inl ⟨_, h, nofun, .inr (.inr (.inl ⟨hstop, hstate, hoffset, rfl⟩))⟩
  · exact .inl ⟨_, h, nofun, .inr (.inr (.inr ⟨hstop, hstate, hoffset, hline, rfl⟩))⟩
  · exact .inr ⟨h, hstop, hstate, hoffset, hline⟩

/-- Only one check is the first that fails. -/
theorem armFails_unique {err err' : ErrorCode} (h : ArmFails s x offsetOk err) (h' : ArmFails s x offsetOk err') :
    err = err' := by
  rcases h with ⟨hs, rfl⟩ | ⟨hs, hh, rfl⟩ | ⟨hs, hh, ho, rfl⟩ | ⟨hs, hh, ho, hl, rfl⟩ <;>
    simp_all [ArmFails]

theorem not_armFails_of_passes {err : ErrorCode} (hstop : s.stop.level = .high) (hheld : (s.slot x).run.state = .held)
    (hoffset : offsetOk) (hline : LineGranted s x) : ¬ ArmFails s x offsetOk err := by
  simp [ArmFails, hstop, hheld, hoffset, hline]

theorem passChecks_fails {mode : ArmMode} (hmode : (s.slot x).config.badOffset mode = false ↔ offsetOk) {err : ErrorCode}
    (h : ArmFails s x offsetOk err) : ∃ o, s.passChecks mode x = .error o ∧ o.error = err := by
  rcases passChecks_spec hmode with ⟨o, ho, -, hfails⟩ | ⟨-, hstop, hheld, hoffset, hline⟩
  · exact ⟨o, ho, armFails_unique hfails h⟩
  · exact absurd h (not_armFails_of_passes hstop hheld hoffset hline)

theorem passChecks_passes {mode : ArmMode} (hmode : (s.slot x).config.badOffset mode = false ↔ offsetOk)
    (hstop : s.stop.level = .high) (hheld : (s.slot x).run.state = .held) (hoffset : offsetOk)
    (hline : LineGranted s x) : s.passChecks mode x = .ok (s.withClaim x) := by
  rcases passChecks_spec hmode with ⟨o, -, -, hfails⟩ | ⟨hok, -⟩
  · exact absurd hfails (not_armFails_of_passes hstop hheld hoffset hline)
  · exact hok

end

/-! ## The outcomes of an arm attempt (R54 to R58) -/

section

variable {s : State} {option : Byte} {x : SlotNo}

/-- Slot `x` with its line claimed and its run part set to fire within the attempt, from the state before it. -/
def readied (s : State) (x : SlotNo) (due : Word) : State :=
  (s.withClaim x).setRun x ((s.slot x).config.armedRun due)

theorem readyToFire_readied (due : Word) : ReadyToFire s (readied s x due) x due := by
  refine ⟨?_, ?_, fun l => (State.line_setRun _ x _ l).trans (onlyItsLine_withClaim s x l)⟩
  · unfold readied State.withClaim
    split <;> rfl
  · have h := onlyItsRun_setRun (s.withClaim x) x ((s.slot x).config.armedRun due)
    simp only [OnlyItsRun, s.slot_withClaim] at h
    exact h

theorem readied_schedStep (due : Word) : SchedStep s (readied s x due) := by
  refine .trans ?_ (State.setRun_schedStep _ _ _)
  unfold State.withClaim
  split
  · exact .refl s
  · exact s.setLine_schedStep _ _

theorem armAttempt_fails {err : ErrorCode} (h : ArmFails s x (OffsetOk option (s.slot x).config) err) :
    ∃ o, s.armAttempt (optionMode option) x = ⟨o, s⟩ ∧ o.error = err := by
  obtain ⟨o, ho, herr⟩ := passChecks_fails (badOffset_modeOf option _) h
  refine ⟨o, ?_, herr⟩
  simp only [State.armAttempt, ho]

theorem armAttempt_passes (h : ArmPasses s option x) : s.armAttempt (optionMode option) x =
    if (s.now (s.slot x).config.timebase - dueFor s option x).toNat < 2 ^ 31 then
      (if dueFor s option x = s.now (s.slot x).config.timebase ∨ (s.slot x).config.latePolicy = .fire then
        ⟨.none, (readied s x (dueFor s option x)).fire x
          (kindAt (dueFor s option x) (s.now (s.slot x).config.timebase)) false⟩
      else ⟨.dropped, droppedLate s x (dueFor s option x)⟩)
    else ⟨.none, (s.withClaim x).armInto x (dueFor s option x)⟩ := by
  obtain ⟨hstop, hheld, hoffset, hline⟩ := h
  have hpass := passChecks_passes (badOffset_modeOf option _) hstop hheld hoffset hline
  rw [← armDue_optionMode]
  rcases s.armAttempt_cases (optionMode option) x with ⟨o, herr, -⟩ | ⟨-, ⟨hr, ha⟩ | ⟨hr, hfire, ha⟩ | ⟨hr, hne, hdrop, ha⟩⟩
  · rw [hpass] at herr; cases herr
  · rw [if_neg (of_decide_eq_false hr), ha]
  · rw [if_pos (of_decide_eq_true hr), if_pos hfire, ha]
    rfl
  · rw [if_pos (of_decide_eq_true hr), if_neg (by simp [hne, hdrop]), ha]

/-- A drop for lateness reaches lines and the queue only. -/
theorem droppedLate_eq_update (s : State) (x : SlotNo) (due : Word) : droppedLate s x due =
    (s.withLines (droppedLate s x due).lines).withReports (droppedLate s x due).reports := by
  have hlines : ∃ v, (if ((s.withClaim x).slot x).config.action = .none then s.withClaim x
      else (s.withClaim x).undoClaim ((s.withClaim x).slot x).config.line (s.line (s.slot x).config.line).owner) =
      s.withLines v := by
    rw [s.slot_withClaim]
    unfold State.withClaim
    by_cases ha : (s.slot x).config.action = .none
    · exact ⟨s.lines, by simp only [if_pos ha]; rfl⟩
    · exact ⟨_, by simp only [if_neg ha]; rfl⟩
  obtain ⟨v, hv⟩ := hlines
  rw [droppedLate, State.dropLate, postIf_eq_withReports, hv]
  rfl

/-- The arm attempt of the model is the arm attempt of the statements. -/
theorem attempted_armAttempt (s : State) (option : Byte) (x : SlotNo) :
    Attempted s (s.armAttempt (optionMode option) x).state option x (s.armAttempt (optionMode option) x).outcome.error := by
  rcases passChecks_spec (badOffset_modeOf option (s.slot x).config) with ⟨o, -, -, hfails⟩ | ⟨-, hpasses⟩
  · obtain ⟨o', ha, herr⟩ := armAttempt_fails hfails
    rw [ha, herr]
    exact .inl ⟨hfails, rfl⟩
  · rw [armAttempt_passes hpasses]
    split
    · next hreached =>
      split
      · next hfire =>
        exact .inr (.inr (.inl ⟨hpasses, hreached, hfire, rfl, _, readyToFire_readied _, fires_fire _ x _ _⟩))
      · next hdrop =>
        rw [not_or] at hdrop
        have hpolicy : (s.slot x).config.latePolicy = .drop := by
          cases hp : (s.slot x).config.latePolicy with
          | fire => exact absurd hp hdrop.2
          | drop => rfl
        exact .inr (.inr (.inr ⟨hpasses, hreached, hdrop.1, hpolicy, rfl, droppedLate_eq_update s x _,
          onlyItsLine_droppedLate s x _, reports_droppedLate s x _⟩))
    · next hahead =>
      exact .inr (.inl ⟨hpasses, not_lt.1 hahead, rfl, armedInto_armInto s x _, armInto_eq_update s x _⟩)

end

/-! ## A fire within the attempt that is the slot's last -/

theorem Scheduler.ext_list {q q' : Scheduler} (h : ∀ r, q.list r = q'.list r) : q = q' := by
  obtain ⟨due0, due1, waits⟩ := q
  obtain ⟨due0', due1', waits'⟩ := q'
  obtain rfl : due0 = due0' := h (.due .tb0)
  obtain rfl : due1 = due1' := h (.due .tb1)
  obtain rfl : waits = waits' := Vector.ext fun i hi => h (.wait ⟨i, hi⟩)
  rfl

/-- A slot armed for one fire makes its last. -/
theorem lastFire_armedRun {c : SlotConfig} (due : Word) (h : c.period = 0 ∨ c.repeats = 1) :
    LastFire { config := c, run := armedRun c due } := by
  by_cases hp : c.period = 0
  · exact .inl hp
  · have hr : c.repeats = 1 := h.resolve_left hp
    exact .inr ⟨by simp [armedRun, startUnlimited, hr], by simp [armedRun, startRemaining, hr]⟩

theorem startUnlimited_of_one {c : SlotConfig} (h : c.period = 0 ∨ c.repeats = 1) : startUnlimited c = false := by
  rcases h with h | h <;> simp [startUnlimited, h]

/-- An armed slot that makes one fire and no chain is HELD again, its list as it was, its line claimed, acted on and
released (R56, R57). -/
theorem fire_once {s : State} {x : SlotNo} (due : Word) (kind : ReportKind)
    (hone : (s.slot x).config.period = 0 ∨ (s.slot x).config.repeats = 1) (hchain : (s.slot x).config.chainEnable = false)
    (hnot : x ∉ s.list (.due (s.slot x).config.timebase)) :
    (readied s x due).fire x kind false = ((s.withSlots ((readied s x due).fire x kind false).slots).withLines
      ((readied s x due).fire x kind false).lines).withReports ((readied s x due).fire x kind false).reports ∧
    OnlyItsRun s ((readied s x due).fire x kind false) x heldRun ∧
    OnlyItsLine s ((readied s x due).fire x kind false) x
      (fun l => releasedBy x (acted (s.slot x).config.action (s.slot x).config.width false (claimed x l))) ∧
    ((readied s x due).fire x kind false).reports = handed (s.slot x).config.reportEnable
      (lastFireReport s x kind due (s.now (s.slot x).config.timebase) false (s.line (s.slot x).config.line)) s.reports := by
  obtain ⟨-, hrun, hline⟩ := readyToFire_readied (s := s) (x := x) due
  have hstep := readied_schedStep (s := s) (x := x) due
  have hlist : ∀ r, (readied s x due).list r = s.list r := fun r => s.list_withClaim x r
  have hreports : (readied s x due).reports = s.reports := s.reports_withClaim x
  have hconfig := config_of_onlyItsRun hrun x
  have hslot := hrun x
  rw [if_pos rfl] at hslot
  have hcountdown : ((readied s x due).line (s.slot x).config.line).countdown =
      (s.line (s.slot x).config.line).countdown := by
    rw [hline]
    split <;> rfl
  generalize readied s x due = m at hrun hline hstep hlist hreports hconfig hslot hcountdown
  have hlast : LastFire (m.slot x) := hslot ▸ lastFire_armedRun due hone
  obtain ⟨-, hheld, herase, hothers, hacted, hposted⟩ := fire_last m x kind false hlast (hconfig ▸ hchain)
  rw [hconfig] at herase hothers hacted hposted
  have hframe := (hstep.trans (m.fire_schedStep x kind false)).eq_update
  have hsched : (m.fire x kind false).sched = s.sched := Scheduler.ext_list fun r => by
    by_cases hr : r = .due (s.slot x).config.timebase
    · rw [hr]
      refine herase.trans ?_
      rw [hlist]
      exact List.erase_of_not_mem hnot
    · exact (hothers r hr).trans (hlist r)
  rw [hsched] at hframe
  refine ⟨hframe, onlyItsRun_trans hrun hheld, onlyItsLine_trans (f := claimed x) hconfig hline hacted, ?_⟩
  rw [hposted, hreports, hstep.now, lastFireReport_congr hconfig hcountdown, hslot]
  exact congrArg (fun b => handed _ (lastFireReport s x kind due _ b _) _) (startUnlimited_of_one hone)

/-! ## The completion events -/

section

variable {s : State} {p : Params} {x : SlotNo}

theorem exec_completion_arm (h : Executing s 0x10 p) : exec .completion s = .next (s.completeArm p).ended :=
  exec_completion_command .arm h (by decide) fun hc hl => by rw [State.complete, hc, hl]

theorem exec_completion_armOnTrigger (h : Executing s 0x11 p) :
    exec .completion s = .next (s.completeArmOnTrigger p).ended :=
  exec_completion_command .armOnTrigger h (by decide) fun hc hl => by rw [State.complete, hc, hl]

theorem exec_completion_cancel (h : Executing s 0x12 p) : exec .completion s = .next (s.completeCancel p).ended :=
  exec_completion_command .cancel h (by decide) fun hc hl => by rw [State.complete, hc, hl]

theorem exec_completion_release (h : Executing s 0x13 p) : exec .completion s = .next (s.completeRelease p).ended :=
  exec_completion_command .release h (by decide) fun hc hl => by rw [State.complete, hc, hl]

/-- ARM is the arm attempt of the named slot, then the end of the command. -/
theorem exec_completion_armAttempt (h : Executing s 0x10 p) (hx : p.pSlot.toNat = x.val) {o : OpOutcome} {t : State}
    (ha : s.armAttempt (optionMode p.option) x = ⟨o, t⟩) :
    exec .completion s = .next (t.withEngine (endedNow s.engine o.error)) := by
  have hengine := (s.armAttempt_schedStep (optionMode p.option) x).engine
  rw [ha] at hengine
  change t.engine = s.engine at hengine
  rw [exec_completion_arm h, State.completeArm, slotOf_some hx]
  simp only [ha, Answer.done, Done.ended_mk, hengine]

/-- ARM ON TRIGGER is the wait arming of the named slot, then the end of the command. -/
theorem exec_completion_waitArm {n : TrigNo} (h : Executing s 0x11 p) (hx : p.pSlot.toNat = x.val)
    (hn : p.option.toNat = n.val) {o : OpOutcome} {t : State} (ha : s.waitArm x n = ⟨o, t⟩) :
    exec .completion s = .next (t.withEngine (endedNow s.engine o.error)) := by
  have hengine := (s.waitArm_schedStep x n).engine
  rw [ha] at hengine
  change t.engine = s.engine at hengine
  rw [exec_completion_armOnTrigger h, State.completeArmOnTrigger, slotOf_some hx, trigOf_some hn]
  simp only [ha, Answer.done, Done.ended_mk, hengine]

/-- Slot `x` waiting on TRG`n` at the tail of its wait list, its line claimed (R59). -/
def waitingOn (s : State) (x : SlotNo) (n : TrigNo) : State :=
  ((s.withClaim x).setRun x ((s.slot x).config.waitingRun n)).setList (.wait n) (s.list (.wait n) ++ [x])

theorem waitingOn_eq_update (s : State) (x : SlotNo) (n : TrigNo) : waitingOn s x n =
    ((s.withSlots (waitingOn s x n).slots).withSched (waitingOn s x n).sched).withLines (waitingOn s x n).lines := by
  unfold waitingOn State.withClaim
  split <;> rfl

theorem onlyItsRun_waitingOn (s : State) (x : SlotNo) (n : TrigNo) :
    OnlyItsRun s (waitingOn s x n) x ((s.slot x).config.waitingRun n) := fun y => by
  rw [waitingOn, State.slot_setList, onlyItsRun_setRun _ x _ y, s.slot_withClaim, s.slot_withClaim]

theorem onlyItsLine_waitingOn (s : State) (x : SlotNo) (n : TrigNo) : OnlyItsLine s (waitingOn s x n) x (claimed x) :=
  fun l => by rw [waitingOn, State.line_setList, State.line_setRun, onlyItsLine_withClaim s x l]

theorem list_waitingOn (s : State) (x : SlotNo) (n : TrigNo) :
    (waitingOn s x n).list (.wait n) = s.list (.wait n) ++ [x] := State.list_setList _ _ _

theorem list_waitingOn_ne (s : State) (x : SlotNo) {n : TrigNo} {r : ListRef} (h : r ≠ .wait n) :
    (waitingOn s x n).list r = s.list r := by
  rw [waitingOn, State.list_setList_ne _ _ h, State.list_setRun, s.list_withClaim]

theorem waitArm_passes {n : TrigNo} (hstop : s.stop.level = .high) (hheld : (s.slot x).run.state = .held)
    (hoffset : (s.slot x).config.offset.toNat < 2 ^ 31 ∧ ¬ OverlapsItself (s.slot x).config) (hline : LineGranted s x) :
    s.waitArm x n = ⟨.none, waitingOn s x n⟩ := by
  rcases s.waitArm_cases x n with ⟨o, herr, -⟩ | ⟨-, ha⟩
  · rw [passChecks_passes (badOffset_relative _) hstop hheld hoffset hline] at herr
    cases herr
  · exact ha

theorem waitArm_fails {n : TrigNo} {err : ErrorCode}
    (h : ArmFails s x ((s.slot x).config.offset.toNat < 2 ^ 31 ∧ ¬ OverlapsItself (s.slot x).config) err) :
    ∃ o, s.waitArm x n = ⟨o, s⟩ ∧ o.error = err := by
  obtain ⟨o, ho, herr⟩ := passChecks_fails (badOffset_relative _) h
  refine ⟨o, ?_, herr⟩
  simp only [State.waitArm, ho]

end

end Sys2Proof.Machine

namespace Sys2Proof.Proofs

open Sys2Proof.Machine Sys2Proof.Claims

/-! ## The statements -/

/-- Settles O36: the attempt inserts a slot whose due point is ahead. -/
theorem armInsertsSlot : Obligations.ArmInsertsSlot := by
  intro s p x h hx hpass hahead
  have ha := armAttempt_passes hpass
  rw [if_neg (not_lt.2 hahead)] at ha
  refine ⟨_, exec_completion_armAttempt h hx ha, armedInto_armInto s x _, ?_⟩
  exact congrArg (State.withEngine · _) (armInto_eq_update s x _)

/-- Settles O37: the attempt fires a slot whose due point is reached; the single fire by the frame of a last fire. -/
theorem armFiresAtOnce : Obligations.ArmFiresAtOnce := by
  rintro s p x due now h hx hpass rfl rfl hreached hpolicy
  have ha := armAttempt_passes hpass
  rw [if_pos hreached, if_pos hpolicy] at ha
  have hexec := exec_completion_armAttempt h hx ha
  refine ⟨⟨_, _, readyToFire_readied _, fires_fire _ x _ _, hexec⟩, fun hone hchain hnot => ⟨_, hexec, ?_⟩⟩
  obtain ⟨hframe, hrun, hline, hreports⟩ := fire_once (dueFor s p.option x)
    (kindAt (dueFor s p.option x) (s.now (s.slot x).config.timebase)) hone hchain hnot
  generalize (readied s x (dueFor s p.option x)).fire x _ false = t at hframe hrun hline hreports ⊢
  exact ⟨congrArg (State.withEngine · _) hframe, hrun, hline, hreports⟩

/-- Settles O38: the attempt drops a late slot. -/
theorem armDropsLateSlot : Obligations.ArmDropsLateSlot := by
  rintro s p x due now h hx hpass rfl rfl hreached hlate hdrop
  have ha := armAttempt_passes hpass
  rw [if_pos hreached, if_neg (by simp [hlate, hdrop])] at ha
  have hframe := droppedLate_eq_update s x (dueFor s p.option x)
  have hline := onlyItsLine_droppedLate s x (dueFor s p.option x)
  have hreports := reports_droppedLate s x (dueFor s p.option x)
  refine ⟨_, exec_completion_armAttempt h hx ha, ?_⟩
  generalize droppedLate s x (dueFor s p.option x) = t at hframe hline hreports ⊢
  exact ⟨congrArg (State.withEngine · _) hframe, hline, hreports⟩

/-- Settles O39. -/
theorem armOnTriggerSetsWaiting : Obligations.ArmOnTriggerSetsWaiting := by
  intro s p x n h hx hn hstop hheld hoffset hoverlap hline
  refine ⟨_, exec_completion_waitArm h hx hn (waitArm_passes hstop hheld ⟨hoffset, hoverlap⟩ hline), ?_⟩
  have hframe := waitingOn_eq_update s x n
  have hrun := onlyItsRun_waitingOn s x n
  have hwait := list_waitingOn s x n
  have hothers := fun r => list_waitingOn_ne s x (n := n) (r := r)
  have hclaim := onlyItsLine_waitingOn s x n
  generalize waitingOn s x n = t at hframe hrun hwait hothers hclaim ⊢
  exact ⟨congrArg (State.withEngine · _) hframe, hrun, hwait, hothers, hclaim⟩

/-- Settles O40: the numbers by their ranges, the checks by the first that fails. -/
theorem armAndArmOnTriggerRefusals : Obligations.ArmAndArmOnTriggerRefusals := by
  refine ⟨fun s p h => ⟨fun hbad => ?_, fun x err hx hfails => ?_⟩, fun s p h => ⟨fun hbad => ?_,
    fun x err hx hn hfails => ?_⟩⟩
  · rw [exec_completion_arm h, State.completeArm, slotOf_none hbad, Done.ended_mk]
  · obtain ⟨o, ha, rfl⟩ := armAttempt_fails hfails
    exact exec_completion_armAttempt h hx ha
  · have hdone : s.completeArmOnTrigger p = ⟨s, .badNumber⟩ := by
      unfold State.completeArmOnTrigger
      split
      · next x n hx hn =>
        rcases hbad with hslot | htrig
        · rw [slotOf_none hslot] at hx; cases hx
        · rw [trigOf_none htrig] at hn; cases hn
      · rfl
    rw [exec_completion_armOnTrigger h, hdone, Done.ended_mk]
  · obtain ⟨o, ha, rfl⟩ := waitArm_fails (n := ⟨p.option.toNat, hn⟩) hfails
    exact exec_completion_waitArm h hx rfl ha

/-- Settles O41: the slot stands in the list that its state names, and its disarm does the rest. -/
theorem cancelDisarmsSlot : Obligations.CancelDisarmsSlot := by
  intro s p x r h hx hr
  have hstands : (s.slot x).standsIn = some r := by
    rcases hr with ⟨harmed, rfl⟩ | ⟨n, hwaiting, hbound, rfl⟩
    · exact standsIn_armed harmed
    · simp [Slot.standsIn, hwaiting, hbound]
  have hdone : s.completeCancel p = ⟨s.cancelSlot r x (optionCut p.option) .none, .none⟩ := by
    rw [State.completeCancel, slotOf_some hx]
    simp only [State.cancel, hstands, Answer.done, OpOutcome.error]
  have hstep := s.cancelSlot_schedStep r x (optionCut p.option) .none
  refine ⟨(s.cancelSlot r x (optionCut p.option) .none).withEngine (endedNow s.engine .none), ?_, ?_,
    onlyItsRun_cancelSlot s x r _ _, s.list_cancelSlot r x _ _, fun q hq => s.list_cancelSlot_ne r x _ _ hq, ?_, ?_⟩
  · rw [exec_completion_cancel h, hdone, Done.ended_mk, hstep.engine]
  · exact congrArg (State.withEngine · _) hstep.eq_update
  · have hcut : ∀ l : Line, (if optionCut p.option then l.cut x else l) =
        if p.option.getLsbD 0 = true ∧ l.owner = some x then { l with logical := .inactive, countdown := 0 } else l :=
      fun l => by
        rw [ite_and]
        rfl
    have hline := onlyItsLine_cancelSlot s x r (optionCut p.option) .none
    simp only [hcut] at hline
    exact hline
  · exact s.reports_cancelSlot r x _ _

/-- Settles O42, by the command, the slot number and the state of the slot. -/
theorem cancelRefusalsAndRelease : Obligations.CancelRefusalsAndRelease := by
  rintro s p b (rfl | rfl) h
  · refine ⟨fun hbad => ?_, fun x hx => ⟨fun _ hidle => ?_, fun hb => absurd hb (by decide),
      fun hb => absurd hb (by decide)⟩⟩
    · rw [exec_completion_cancel h, State.completeCancel, slotOf_none hbad, Done.ended_mk]
    · rw [exec_completion_cancel h, State.completeCancel, slotOf_some hx]
      simp only [State.cancel, standsIn_idle hidle, Answer.done, Done.ended_mk, OpOutcome.error]
  · refine ⟨fun hbad => ?_, fun x hx => ⟨fun hb => absurd hb (by decide), fun _ hstate => ?_, fun _ hheld => ?_⟩⟩
    · rw [exec_completion_release h, State.completeRelease, slotOf_none hbad, Done.ended_mk]
    · simp only [exec_completion_release h, State.completeRelease, slotOf_some hx, if_neg hstate, Done.ended_mk]
    · simp only [exec_completion_release h, State.completeRelease, slotOf_some hx, if_pos hheld, Done.ended_mk]
      rfl

end Sys2Proof.Proofs
end

section
/-! PROOFS. SET TICK and FORCE LINE (10.6.4, 10.7.2), and the blocks of a transfer (9.4 to 9.6): the preparation of a read
block, the opening and the processing of a block of ARM BATCH, and the statements about them. -/

namespace Sys2Proof.Machine

open Sys2Proof.Claims

section

variable {s : State} {p : Params}

/-! ## SET TICK and FORCE LINE -/

theorem exec_completion_setTick (h : Executing s 0x34 p) : exec .completion s = .next (s.completeSetTick p).ended :=
  exec_completion_command .setTick h (by decide) fun hc hl => by rw [State.complete, hc, hl]

theorem exec_completion_forceLine (h : Executing s 0x41 p) :
    exec .completion s = .next (s.completeForceLine p).ended :=
  exec_completion_command .forceLine h (by decide) fun hc hl => by rw [State.complete, hc, hl]

/-! ## The pending block event (R132) -/

/-- A read-direction command whose checks passed holds a block preparation pending. -/
theorem pendingEvent_reads {b : Byte} (h : Executing s b p)
    (hb : commandOf b = some .readReports ∨ commandOf b = some .readDueList)
    (hcheck : transferCheck (commandOf b) p = .none) : s.engine.pendingEvent = .preparation := by
  have hcommand := command_executing h
  have hlatched := latched_executing h
  obtain ⟨-, hphase, -⟩ := h
  rcases hb with hc | hc <;> rw [hc] at hcommand hcheck <;>
    simp only [Engine.pendingEvent, if_pos hphase, hcommand, hlatched, if_pos hcheck]

theorem exec_blockPreparation_reports (h : Executing s 0x20 p) (hlow : 1 ≤ p.count.toNat) (hhigh : p.count.toNat ≤ 64) :
    exec .blockPreparation s = .next s.prepareReports := by
  have hpending := pendingEvent_reads h (.inl rfl) (transferCheck_reportsPasses hlow hhigh)
  have hcommand : s.engine.command = some .readReports := command_executing h
  obtain ⟨hr, -⟩ := h
  rw [exec_blockPreparation hr, State.preparationEvent, if_pos hpending, if_pos hcommand]

theorem exec_blockPreparation_dues (h : Executing s 0x22 p) (hone : NamesOne p.option) (hlow : 1 ≤ p.count.toNat)
    (hhigh : p.count.toNat ≤ 128) : exec .blockPreparation s = .next s.prepareDues := by
  have hpending := pendingEvent_reads h (.inr rfl) (transferCheck_dueListPasses hone hlow hhigh)
  have hcommand : s.engine.command = some .readDueList := command_executing h
  obtain ⟨hr, -⟩ := h
  rw [exec_blockPreparation hr, State.preparationEvent, if_pos hpending, hcommand, if_neg (by decide)]

/-- A batch whose checks passed holds its opening pending before its first block, and a processing after each. -/
theorem pendingEvent_executingBatch (h : Executing s 0x14 p) (hlow : 1 ≤ p.count.toNat) (hhigh : p.count.toNat ≤ 64) :
    s.engine.pendingEvent = if s.engine.blockLength = 0 then .opening else .processing := by
  have hcommand : s.engine.command = some .armBatch := command_executing h
  have hlatched := latched_executing h
  obtain ⟨-, hphase, -⟩ := h
  exact pendingEvent_batch hphase hcommand (hlatched ▸ transferCheck_batchPasses hlow hhigh)

theorem exec_blockOpening_batch (h : Executing s 0x14 p) (hlow : 1 ≤ p.count.toNat) (hhigh : p.count.toNat ≤ 64)
    (hfirst : s.engine.blockLength = 0) : exec .blockOpening s = .next s.openSlots := by
  have hpending := pendingEvent_executingBatch h hlow hhigh
  rw [if_pos hfirst] at hpending
  obtain ⟨hr, -⟩ := h
  rw [exec_blockOpening hr, State.openingEvent, if_pos hpending]

theorem exec_blockProcessing_batch (h : Executing s 0x14 p) (hlow : 1 ≤ p.count.toNat) (hhigh : p.count.toNat ≤ 64)
    (hopen : s.engine.blockLength ≠ 0) : exec .blockProcessing s = .next s.processBlock := by
  have hpending := pendingEvent_executingBatch h hlow hhigh
  rw [if_neg hopen] at hpending
  obtain ⟨hr, -⟩ := h
  rw [exec_blockProcessing hr, State.processingEvent, if_pos hpending]

end

/-! ## The entries of a block of ARM BATCH (R140, R152) -/

/-- The failure that a block's entries come to, with its byte. -/
def BatchResult.failure : BatchResult → Option (ErrorCode × Byte)
  | .armed => none
  | .failed err b => some (err, b)

theorem toNat_of_slotOf {b : Byte} {x : SlotNo} (h : slotOf b = some x) : b.toNat = x.val := by
  unfold slotOf at h
  split at h <;> cases h
  rfl

theorem OpOutcome.error_ne_none {o : OpOutcome} (h : o ≠ .none) : o.error ≠ .none := by
  cases o with
  | none => exact absurd rfl h
  | _ => nofun

/-- The entries of a block are taken in order, each by the arm attempt of the statements; REMAIN covers the block, so each
success lowers it by one. -/
theorem entriesTaken_armEntries (option : Byte) (bs : List Byte) (s : State) (h : bs.length ≤ s.engine.remain.toNat) :
    EntriesTaken option bs s (s.armEntries (optionMode option) bs).1
      (s.armEntries (optionMode option) bs).2.failure := by
  induction bs generalizing s with
  | nil => exact ⟨rfl, rfl⟩
  | cons b bs ih =>
    unfold State.armEntries
    split
    · next hb => exact .inl ⟨(slotOf_eq_none_iff b).1 hb, rfl, rfl⟩
    · next x hb =>
      have hattempted := attempted_armAttempt s option x
      have hstep := s.armAttempt_schedStep (optionMode option) x
      refine .inr ⟨x, toNat_of_slotOf hb, ?_⟩
      split
      · next t heq =>
        rw [heq] at hattempted hstep
        have hengine : t.engine = s.engine := hstep.engine
        have hremain : t.engine.remain ≠ 0 := fun hzero => by
          rw [← hengine, hzero, List.length_cons] at h
          exact absurd h (by simp)
        have hlowered : t.lowerRemain = t.withEngine { t.engine with remain := t.engine.remain - 1 } := by
          rw [State.lowerRemain, lower_of_ne_zero hremain]
        have hleft : bs.length ≤ t.lowerRemain.engine.remain.toNat := by
          have hlower := lower_toNat t.engine.remain
          rw [hengine, ← hengine] at hlower
          rw [State.lowerRemain, State.engine_withEngine, hlower, hengine]
          rw [List.length_cons] at h
          omega
        exact .inr ⟨t, hattempted, hlowered ▸ ih _ hleft⟩
      · next o t hne heq =>
        rw [heq] at hattempted
        exact .inl ⟨_, OpOutcome.error_ne_none fun ho => hne ho, hattempted, rfl⟩

end Sys2Proof.Machine

namespace Sys2Proof.Proofs

open Sys2Proof.Machine Sys2Proof.Claims

/-! ## The statements -/

/-- Settles O46, by the code, the TB0 due list and the pulses. -/
theorem setTick : Obligations.SetTick := by
  intro s p h
  rw [exec_completion_setTick h, State.completeSetTick]
  refine ⟨fun hbad => ?_, fun hcode hbusy => ?_, fun code hcode hempty hquiet => ?_⟩
  · rw [dif_neg (by omega), Done.ended_mk]
  · rw [dif_pos hcode, if_pos (by rwa [State.pulsePending_iff]), Done.ended_mk]
  · have hfree : ¬ (s.list (.due .tb0) ≠ [] ∨ s.pulsePending = true) := by
      rw [State.pulsePending_iff]
      rintro (hlist | ⟨l, hl⟩)
      · exact hlist hempty
      · exact hl (hquiet l)
    have hfin : (⟨p.value0.toNat, hcode ▸ code.isLt⟩ : Fin 4) = code := Fin.ext hcode
    rw [dif_pos (hcode ▸ code.isLt), if_neg hfree, Done.ended_mk, hfin]
    rfl

/-- Settles O48, by the line number, the stop and the owner. -/
theorem forceLine : Obligations.ForceLine := by
  intro s p h
  rw [exec_completion_forceLine h, State.completeForceLine]
  refine ⟨fun hbad => ?_, fun l hl => ?_⟩
  · rw [lineOf_none hbad, Done.ended_mk]
  have hstop : s.stop.level = .high → s.stopAsserted = false := (stopAsserted_eq_false_iff s).2
  simp only [lineOf_some hl]
  refine ⟨fun hlow => ?_, fun hhigh howned => ?_, fun hhigh hfree => ?_⟩
  · rw [if_pos (by rw [State.stopAsserted, hlow]; rfl), Done.ended_mk]
  · rw [hstop hhigh, if_neg Bool.false_ne_true, if_pos howned, Done.ended_mk]
  · rw [hstop hhigh, if_neg Bool.false_ne_true, if_neg (not_not.2 hfree), Done.ended_mk]
    rfl

/-- Settles O52: each preparation and the opening, by the length of the block. -/
theorem blockPreparationAndOpening : Obligations.BlockPreparationAndOpening := by
  intro s p hr hphase
  refine ⟨?_, ?_, fun hp hlow hhigh hfirst => exec_blockOpening_batch ⟨hr, hphase, hp⟩ hlow hhigh hfirst⟩
  · rintro _ hp hlow hhigh rfl
    rw [exec_blockPreparation_reports ⟨hr, hphase, hp⟩ hlow hhigh]
    exact ⟨fun hzero => congrArg _ (if_pos hzero), fun hk => congrArg _ (if_neg hk)⟩
  · rintro _ hp hone hlow hhigh rfl
    rw [exec_blockPreparation_dues ⟨hr, hphase, hp⟩ hone hlow hhigh]
    exact ⟨fun hzero => congrArg _ (if_pos hzero), fun hk => congrArg _ (if_neg hk)⟩

/-- Settles O53: the entries by their attempts, the end of the block by what they come to. -/
theorem blockProcessing : Obligations.BlockProcessing := by
  intro s p bs h hlow hhigh hopen hbuffer hlen
  refine ⟨_, _, _, exec_blockProcessing_batch h hlow hhigh hopen, entriesTaken_armEntries p.option bs s hlen, ?_⟩
  have hbytes : s.engine.buffer.bytes = bs := by rw [hbuffer, TransferBuffer.bytes]
  rw [State.processBlock, latched_executing h, hbytes]
  generalize s.armEntries (optionMode p.option) bs = result
  obtain ⟨m, _ | ⟨err, b⟩⟩ := result
  · refine ⟨nofun, fun _ hzero => if_pos hzero, fun _ hmore => if_neg hmore⟩
  · refine ⟨fun err' b' heq => ?_, nofun, nofun⟩
    cases heq
    rfl

end Sys2Proof.Proofs
end

section
/-! PROOFS. The step and the queue of commands, RESET#, base ticks, due points and the report queue (0.4.4, 1.1, 1.3, 6.3,
8.4 and 12.4): what every event leaves of the queue of commands, and the statements about these. -/

namespace Sys2Proof.Machine

open Sys2Proof.Claims

/-! ## Every row answers a next state (0.4.5) -/

theorem exec_next (c : Instr) (s : State) : ∃ t, exec c s = .next t := by
  cases c with
  | advance source => cases source <;> exact ⟨_, rfl⟩
  | _ => exact ⟨_, rfl⟩

section

variable {s t : State}

/-- The commands that wait and the index of free values are as they were. -/
abbrev SameQueue (s t : State) : Prop := t.pending = s.pending ∧ t.freeIndex = s.freeIndex

theorem sameQueue_schedStep (h : SchedStep s t) : SameQueue s t := ⟨h.pending, h.freeIndex⟩

theorem sameQueue_setCounter (s : State) (tb : Timebase) (c : Counter) : SameQueue s (s.setCounter tb c) := by
  cases tb <;> exact ⟨rfl, rfl⟩

theorem sameQueue_advance (s : State) (tb : Timebase) (fresh : Bool) : SameQueue s (s.advance tb fresh) := by
  obtain ⟨u, hu⟩ := advance_frame s tb fresh
  exact ⟨hu.pending, hu.freeIndex⟩

theorem sameQueue_effect (h : Effect s t) : SameQueue s t := by
  cases h with
  | arm mode x => exact sameQueue_schedStep (s.armAttempt_schedStep mode x)
  | armOnTrigger x n => exact sameQueue_schedStep (s.waitArm_schedStep x n)
  | cancel x cut => exact sameQueue_schedStep (s.cancel_schedStep x cut)
  | flush n => exact sameQueue_schedStep (s.flush_schedStep n)
  | setTimebase tb _ _ => exact sameQueue_setCounter s tb _
  | _ => exact ⟨rfl, rfl⟩

/-- No event of the device reaches the queue of commands. -/
theorem sameQueue_event (h : Event s t) : SameQueue s t := by
  cases h with
  | advance tb fresh => exact sameQueue_advance s tb fresh
  | cntRise => exact sameQueue_advance (s.withTimebase { s.timebase with cntLevel := .high }) .tb1 false
  | edge n c => exact sameQueue_schedStep (s := s.setTrig n c) (State.takeEdge_schedStep _ n)
  | stopAsserted _ =>
    obtain ⟨hpending, hindex⟩ := sameQueue_schedStep s.giveUp_schedStep
    exact ⟨(State.pending_withStop _ _).trans hpending, (State.freeIndex_withStop _ _).trans hindex⟩
  | recordWrite b =>
    obtain ⟨v, p, hp⟩ := reaches_recordWrite s b
    rw [hp]
    exact ⟨rfl, rfl⟩
  | recordRead b =>
    obtain ⟨p, hp⟩ := reaches_recordRead s
    rw [State.returning, hp]
    exact ⟨rfl, rfl⟩
  | transferRead b =>
    obtain ⟨e, he | he⟩ := reaches_transferRead s
    · rw [State.returning, he]
      exact ⟨rfl, rfl⟩
    · rw [State.returning, he]
      exact ⟨rfl, rfl⟩
  | transferWrite b =>
    obtain ⟨e, he⟩ := reaches_transferWrite s b
    rw [he]
    exact ⟨rfl, rfl⟩
  | command b =>
    obtain ⟨e, he⟩ := reaches_writeCommand s b
    rw [he]
    exact ⟨rfl, rfl⟩
  | abort =>
    obtain ⟨e, he⟩ := reaches_abortCommand s
    rw [he]
    exact ⟨rfl, rfl⟩
  | softReset => simp [SameQueue, State.softReset, State.softResetSlots]
  | completion err heffect =>
    obtain ⟨hpending, hindex⟩ := sameQueue_effect heffect
    exact ⟨hpending, hindex⟩
  | prepareReports _ _ =>
    obtain ⟨e, he⟩ := reaches_prepareReports s
    rw [he]
    exact ⟨rfl, rfl⟩
  | prepareDues _ _ =>
    obtain ⟨e, he⟩ := reaches_prepareDues s
    rw [he]
    exact ⟨rfl, rfl⟩
  | processing _ =>
    obtain ⟨e, he⟩ := processBlock_eq s
    obtain ⟨hpending, hindex⟩ := sameQueue_schedStep (armEntries_frame s (optionMode s.engine.latched.option)
      s.engine.buffer.bytes).1
    rw [he]
    exact ⟨hpending, hindex⟩
  | _ => exact ⟨rfl, rfl⟩

/-! ## A step (0.4.4) -/

theorem step_command {c : Instr} {rest : List Instr} (h : s.pending = c :: rest) : step s = exec c (s.withPending rest) := by
  simp only [step, h]

theorem step_idle (h : s.pending = []) : step s = .next s.idle := by
  simp only [step, h]

/-- The commands of a base tick, by the run state of TB0 (R2, R88). -/
theorem tickEvents_held (h : s.timebase.tb0.run = .held) : s.tickEvents = [.baseTick] := by
  simp only [State.tickEvents, h]

theorem tickEvents_running (h : s.timebase.tb0.run = .running) :
    s.tickEvents = [.baseTick, .advance (.tb0 true)] ∨ s.tickEvents = [.advance (.tb0 false), .baseTick] := by
  simp only [State.tickEvents, h]
  exact ite_eq_or_eq _ _ _

/-! ## A base tick (R86, R87, R104) -/

/-- The line unit takes a base tick line by line, by the rules of the countdown. -/
theorem tickedLine_tick (s : State) (l : LineNo) : TickedLine s l ((s.line l).tick (s.ownerHolds l)) := by
  refine ⟨fun hfresh => Line.tick_fresh _ hfresh, fun hfresh hzero => ?_, fun hfresh hmore => Line.tick_lowers _ hfresh hmore,
    fun hfresh hone howner => ?_, fun hfresh hone howner => ?_⟩
  · rw [Line.tick_idle _ hzero, ← hfresh]
  · rw [Line.tick_ends _ hfresh hone, (holdingOwner_iff s l).2 howner]
    rfl
  · rw [Line.tick_ends _ hfresh hone, Bool.eq_false_of_not_eq_true (mt (holdingOwner_iff s l).1 howner)]
    rfl

/-! ## RESET# (R182) -/

theorem trig_powerOn (pins : PinLevels) (n : TrigNo) : (State.powerOn pins).trig n = .powerOn (pins.trg n) :=
  match n with
  | 0 | 1 | 2 | 3 => rfl

end

end Sys2Proof.Machine

namespace Sys2Proof.Proofs

open Sys2Proof.Machine Sys2Proof.Claims

/-! ## The statements -/

/-- Settles O1. -/
theorem stepRunsFrontCommand : Obligations.StepRunsFrontCommand := fun _ _ _ h => step_command h

/-- Settles O2: a row is one event of the device, and no event reaches the queue of commands. -/
theorem everyCommandAnswersNext : Obligations.EveryCommandAnswersNext := fun c s => by
  obtain ⟨t, ht⟩ := exec_next c s
  exact ⟨t, ht, sameQueue_event (event_exec ht)⟩

/-- Settles O3, by RESET# and the base tick count. -/
theorem emptyQueueStepIsOneClkPeriod : Obligations.EmptyQueueStepIsOneClkPeriod := by
  intro s hempty
  rw [step_idle hempty]
  refine ⟨fun hr => ?_, fun hr hmore => ?_, fun hr hperiod => ⟨s.tickEvents, ?_, tickEvents_held, tickEvents_running⟩⟩
  · rw [State.idle, if_pos hr]
  · rw [State.idle, hr, if_neg Bool.false_ne_true, Config.clkPeriods, if_pos hmore]
  · rw [State.idle, hr, if_neg Bool.false_ne_true, Config.clkPeriods, if_neg (not_lt.2 hperiod)]
    rfl

/-- Settles O4: what the held device drives, and the commands it does not take. -/
theorem resetHeldDevice : Obligations.ResetHeldDevice :=
  ⟨fun _ => ⟨_, rfl, rfl, fun _ => rfl, rfl, fun a => State.quietRead_held a rfl⟩, fun _ _ hr h1 h2 => exec_held hr h1 h2⟩

/-- Settles O5, block by block. -/
theorem resetReleaseGivesPowerOnValues : Obligations.ResetReleaseGivesPowerOnValues := by
  refine ⟨fun pins s => ⟨_, rfl, rfl, rfl, rfl, rfl, rfl, fun x => ?_, fun r => ?_, fun l => ?_, fun n => ?_, rfl, rfl, rfl,
    rfl, rfl⟩, rfl, rfl⟩
  · exact Vector.getElem_replicate _
  · cases r with
    | due tb => cases tb <;> rfl
    | wait n => exact Vector.getElem_replicate _
  · have hline : (s.releaseReset pins).line l = .powerOn := Vector.getElem_replicate _
    refine ⟨hline, ?_⟩
    exact congrArg Line.level hline
  · exact trig_powerOn pins n

/-- Settles O6, line by line and channel by channel. -/
theorem baseTickInOneEventOrTwo : Obligations.BaseTickInOneEventOrTwo := by
  refine ⟨fun s hr => ⟨_, exec_baseTick hr, rfl, fun l => ?_, fun n => ?_⟩, fun s hr => ⟨⟨_, exec_pulseEnd hr, rfl,
    fun l => ?_⟩, ⟨_, exec_lockoutWindowClose hr, rfl, s.trig_trigTick⟩⟩⟩
  · exact (s.restartTick.line_lineTick l).symm ▸ tickedLine_tick s l
  · exact s.restartTick.lineTick.trig_trigTick n
  · exact (s.line_lineTick l).symm ▸ tickedLine_tick s l

/-- Settles O54, from the distance of a due point that is not reached. -/
theorem duePointTestAndDistance : Obligations.DuePointTestAndDistance := by
  intro c d
  have hahead := not_reached_iff c d
  have hnow := distance_eq_zero c d
  refine ⟨hahead, hnow, ?_, fun h => ?_⟩
  · rw [← Bool.not_eq_false, hahead, ne_eq, ← hnow]
    omega
  · obtain ⟨hpos, -⟩ := hahead.1 h
    rw [distance_advance hpos, Nat.sub_add_cancel hpos]

/-- Settles O55, by the level of the queue. -/
theorem reportIsAppendedOrCounted : Obligations.ReportIsAppendedOrCounted := by
  refine fun s r => ⟨fun hroom => ?_, fun hfull => ?_⟩
  · rw [State.post, ReportQueue.append_room r (by omega)]
    exact ⟨rfl, List.length_append⟩
  · rw [State.post, ReportQueue.append_full r (by omega), raise255]
    exact ⟨rfl, decide_eq_true hfull⟩

end Sys2Proof.Proofs
end
